-- ==== Sys2Proof/Word.lean ====
section
/-! DEFINITION. The word types of the K128: registers are 32 bits wide (R3), memory and rings are read by
the byte, and a 64-bit value occupies a pair of words. -/

namespace Sys2Proof

/-- One register or parameter word (R3). -/
abbrev Word := BitVec 32

/-- One byte of memory, of a ring or of an image. -/
abbrev Byte := BitVec 8

end Sys2Proof
end

