-- ==== Sys2Proof/Syntax.lean ====
section
/-! DEFINITION. The commands of the K128: one constructor of `Instr` per row of the operation table, with
the operands that come from outside (addresses, values, what the environment showed the device). A command
that the device itself issues at a moment the spec fixes (a timer expiry, a scheduler decision) is a
constructor too: the environment says when, the state says what. -/

namespace Sys2Proof

/-- A function number: bit 6 is the port, bits 5..0 the function on it, 0 the PF (R51). -/
abbrev Fid := Fin 128

/-- Who makes a register access: a PCIe function or a control processor (R51, R332). -/
inductive Agent where
  | fn (f : Fid)
  | cp (k : Fin 4)
deriving DecidableEq, Repr

/-- A context of a control-processor pair (R333). -/
structure Ctx where
  pair : Fin 2
  slot : Fin 8
deriving DecidableEq, Repr

/-- The operand fields of a microword, bits 25..0 of Table 15-2. -/
structure Mw where
  dst : BitVec 4
  src : BitVec 4
  imm : BitVec 18
deriving DecidableEq, Repr

/-- What a bus read of a host address returned: `none` when the last retry failed (R80, R308). -/
abbrev HostRead := Option (List Byte)

/-- The kind of a span (R12): encode or decode. -/
inductive SpanKind where
  | enc
  | dec
deriving DecidableEq, Repr

/-- A power-gated unit (R400). -/
inductive GateUnit where
  | span (k : SpanKind) (logical : Fin 16)
  | vestibule (n : Fin 4)
  | mezzanine (n : Fin 4)
deriving DecidableEq, Repr

/-- A JTAG instruction (R368). -/
inductive JtagInst where
  | idcode
  | bypass
  | other (ir : Nat)
deriving DecidableEq, Repr

/-- What one regulator answered at a PMBus poll (R407); `none` where it did not acknowledge. -/
structure PmbReading where
  statusWord : BitVec 16
  vout : BitVec 16
  iout : BitVec 16
  pout : BitVec 16
  /-- A bit of STATUS_WORD the PMBus standard calls a fault is set (R408). -/
  fault : Bool
  /-- A bit of STATUS_WORD the PMBus standard calls a warning is set (R408). -/
  warning : Bool
deriving DecidableEq, Repr

/-- What makes the device leave DEEP_IDLE (Table 18-3). -/
inductive DeepExit where
  | toD0 (f : Fid)
  | perstDeassert (port : Fin 2)
  | wake
  | pldmType5
deriving DecidableEq, Repr

/-- What the granted memory request found in the line it touched (R269–R279). -/
inductive LineOutcome where
  | clean
  /-- The line code corrected one symbol. -/
  | corrected
  /-- The line code could not correct this line, 0 to 3, of the member's unit. -/
  | uncorrectable (member : Fin 5) (line : Fin 4) (severity : BitVec 2) (syndrome : Word)
  /-- Lines of two members in one MCLK cycle (R273). -/
  | twoUncorrectable (first : Fin 5) (line : Fin 4) (second : Fin 5) (line2 : Fin 4) (severity : BitVec 2) (syndrome : Word)
  /-- Scrub only: lines clean, parity disagrees (R270). -/
  | parityWrong
deriving DecidableEq, Repr

/-- What lies in device memory above the pools (R123, R200, R241). The spec gives its sizes and no addresses, so a
request names what its line holds. -/
inductive MemObject where
  /-- A Gallery slot of a step of a session. -/
  | picture (sess : Fin 512) (step : Fin 6) (slot : Nat)
  /-- The conditioned copies of a frame. -/
  | copySet (frame : Nat)
  /-- A byte of a committed frame in a flow's flight. -/
  | flight (flow : Fin 4096) (frameNum : Nat) (byte : Nat)
deriving DecidableEq, Repr

/-- One request at a stripe-group arbiter (Table 12-10): who asks, at which device address, how many
bytes, whether it writes, and what of `MemObject` its line and the unit lost with it hold. -/
structure MemReq where
  id : Fin 52
  addr : Nat
  bytes : Nat
  write : Bool
  holds : List MemObject
deriving DecidableEq, Repr

/-- Outcome of the diagnosis of a frozen member (R275). -/
inductive DiagOutcome where
  | clean
  | rewritten
  | rowFault
  | memberFault
deriving DecidableEq, Repr

/-- Samples of a picture's components, line by line from the top; no chroma where a picture has none. -/
structure Samples where
  y : List (List Nat)
  cb : List (List Nat)
  cr : List (List Nat)
deriving DecidableEq, Repr

/-- The seed a block's final vector came from (R156, R164). -/
inductive Seed where
  | hint
  | coarse
  | predicted
  | zero
  | inherited
deriving DecidableEq, Repr

/-- One vector of an inter block: its reference's place in the frame's list, and the vector in quarter samples. -/
structure Motion where
  ref : Nat
  x : Int
  y : Int
  seed : Seed
deriving DecidableEq, Repr

/-- An intra direction (Table 07-2): DC, planar or smooth, or a numbered one. -/
inductive IntraMode where
  | dc
  | planar
  | angle (n : Nat)
deriving DecidableEq, Repr

/-- How an inter block bends its vectors (R158): not at all, by 4- or 6-parameter affine, or by local warp. -/
inductive Warp where
  | none
  | affine4
  | affine6
  | localWarp
deriving DecidableEq, Repr

/-- How a block is predicted (Table 07-2). `searched` tells a block whose vectors the motion search found from one that takes
the codec's merge or skip candidates as they are. -/
inductive Coding where
  | intra (m : IntraMode)
  | palette (colours : Nat)
  | blockCopy (x y : Int)
  | inter (mvs : List Motion) (searched : Bool) (warp : Warp)
deriving DecidableEq, Repr

/-- A transform of one axis (Table 07-2): `identity` is AV1's IDTX and HEVC's transform skip, `mts` a kernel of VVC's multiple
transform selection, `integer` AVC's. -/
inductive Kernel where
  | dct
  | adst
  | flipAdst
  | dst
  | mts
  | identity
  | integer
deriving DecidableEq, Repr

/-- A transform of a coded residual, its size in samples, and whether its levels were chosen by RDOQ or trellis (Table 07-2). -/
structure Transform where
  w : Nat
  h : Nat
  across : Kernel
  down : Kernel
  lfnst : Bool
  optimised : Bool
deriving DecidableEq, Repr

/-- A coded block, its place and size in luma samples of the step. -/
structure Block where
  x : Nat
  y : Nat
  w : Nat
  h : Nat
  coding : Coding
  /-- The transforms of its residual; an inter block with none is a skip. -/
  transforms : List Transform
deriving DecidableEq, Repr

/-- A candidate that mode decision evaluated, with its reconstruction and its R (R158). -/
structure Trial where
  block : Block
  recon : Samples
  rate : Nat
deriving DecidableEq, Repr

/-- What one lane of a span made of one row of its share (R171, Table 08-1): the bits of each tile or slice stream the span
codes, the blocks, and the end state that the next row may start from. -/
structure Lane where
  /-- The step's header units, in the first row of the gang's first span (R147, R182). -/
  heads : List (List Byte)
  /-- Bits of tile and slice headers among the streams' (R182). -/
  header : Nat
  streams : List (List Bool)
  blocks : List Block
  /-- Candidates that mode decision evaluated, in order. -/
  trials : List Trial
  /-- The last unfiltered line of each component. -/
  bottom : Samples
  /-- Arithmetic coder registers and context sets. -/
  coder : List Byte
  /-- The WPP synchronisation set, empty without WPP. -/
  sync : List Byte
deriving DecidableEq, Repr

/-- What a header unit of a frame is (R147, R167). -/
inductive HeadUnit where
  | delimiter
  | parameterSet
  | sequenceHeader
  | frameHeader
  /-- Mastering display colour volume, and content light level. -/
  | mastering
  | contentLight
  | other
deriving DecidableEq, Repr

/-- What one step of a frame carries to its crossing. -/
structure StepContent where
  /-- What the header units are, in order (R147). -/
  heads : List HeadUnit
  /-- The bytes of each unit in bitstream order: the header units, then one per tile or slice (R147). -/
  units : List (List Byte)
  /-- The reconstruction after the in-loop filters. -/
  recon : Samples
deriving DecidableEq, Repr

/-- What a NAL unit or OBU of a unit to decode is (R219): the start of a coded picture, of an intra one, more of it, a parameter set or sequence
header of a kind with an id, valid or not, or anything else. -/
inductive UnitPart where
  | picture
  | intraPicture
  | more
  | set (kind id : Nat) (valid : Bool)
  | other
deriving DecidableEq, Repr

/-- A NAL unit or OBU with its bytes; `base` tells one of the base layer and operating point 0 (Table 10-2). -/
structure UnitItem where
  part : UnitPart
  base : Bool
  bytes : Nat
deriving DecidableEq, Repr

/-- Where the parser found an error (Table 10-8), a source that cannot be read, and a slice or tile that never came. -/
inductive ParseError where
  | nalUnit
  | parameterSet
  | setMissing
  | sliceHeader
  | sliceData
  | obu
  | obuEnd
  | frameHeader
  | sequenceMissing
  | tileGroup
  | tileData
  | vp9Header
  | superframe
  | tileSize
  | vp9Data
  | truncated
  | source
  | neverCame
deriving DecidableEq, Repr

/-- An error with what it discards (R236): nothing, the picture, or a run of units. Units are raster indices; `colStarts` and
`rowStarts` are the first unit columns and rows of the picture's tiles, [0] without tiles. -/
inductive DamageRun where
  | nothing
  | picture
  | units (cols rows : Nat) (colStarts rowStarts : List Nat) (detected first : Nat) (resume : Option Nat)
deriving DecidableEq, Repr

/-- Damage the parser found at a row of a decode picture. -/
structure Damage where
  error : ParseError
  run : DamageRun
deriving DecidableEq, Repr

/-- What the parser and the reconstruction made of a coded picture (R206, R214, R215). Pictures are named by DECODE number. -/
structure Decoded where
  sizeW : Nat
  sizeH : Nat
  depth : Nat
  chroma : Nat
  /-- Field coding, slice groups, arbitrary slice order or a large-scale tile (Table 10-2). -/
  outside : Bool
  /-- DECODE numbers of the visible pictures that stay after this one's marking. -/
  keep : List Nat
  /-- The picture itself is marked as a reference. -/
  isRef : Bool
  /-- It is intra: it reads nothing. -/
  intra : Bool
  /-- References that its blocks read; one not in the visible set is missing. -/
  reads : List Nat
  /-- List 0 index 0, or LAST_FRAME. -/
  first : Option Nat
  /-- Vectors to the first reference, in the units of the codec, by column and row of 8 × 8 blocks (Table 10-9). -/
  vectors : List ((Nat × Nat) × (Int × Int))
  /-- Parameter sets and headers that it uses: kind and id. -/
  needs : List (Nat × Nat)
  /-- Its samples where units were decoded, after the in-loop filters. -/
  pic : Samples
deriving DecidableEq, Repr

/-- A frame of an AV1 or VP9 unit that is not shown (R223), with the damage found in it. -/
structure HiddenFrame extends Decoded where
  damage : List Damage
deriving DecidableEq, Repr

/-- A unit's shown picture (R221, R223). -/
structure PictureInfo extends Decoded where
  crop : Word
  disp : Word
  colour : Word
  /-- The picture starts a coded video sequence (R223). -/
  seqStart : Bool
  /-- ORDER of the bitstream, or none when it could not be parsed. -/
  order : Option (BitVec 16)
  /-- A recovery point SEI or GDR target order it carries (R239). -/
  recovery : Option (BitVec 16)
  /-- The standard says not to output it (Table 10-7 bit 27). -/
  notForOutput : Bool
  /-- Hidden frames of the unit before it, in decode order. -/
  hidden : List HiddenFrame
  /-- The picture that show_existing_frame names. -/
  shown : Option Nat
  /-- The same with film grain, for the output only. -/
  grained : Option Samples
deriving DecidableEq, Repr

/-- What a decode span has at a row end (R217): the rows of 64 lines of its picture, the damage found, the lines of pictures in
flight that the row's blocks read, each picture by its frame (R230), the state of its lines, and the source bytes that came from a
host address meanwhile (R224). -/
structure RowEnd where
  rows : Nat
  damage : List Damage
  reads : List (Nat × Nat)
  bottom : Samples
  input : List Byte
deriving DecidableEq, Repr

/-- What a selective IDE stream may cover on its port (R369): the three windows, and the device's own writes and reads. -/
inductive IdeUse where
  | registers | doorbells | aperture | device
deriving DecidableEq, Repr

/-- Keys for a stream of a port, with what its host has it cover (R369). -/
structure IdeKey where
  stream : Fin 4
  covers : List IdeUse
deriving DecidableEq, Repr

/-- A write of SEM.LOCK[n]: the value, and the requester whose read of the register falls in the same FCLK cycle (R51). -/
structure Release where
  value  : Word
  reader : Option Agent
  deriving DecidableEq, Repr

/-- What can withdraw a request in the FCLK cycle of a claim (R316): a write of SRC_PEND_CLR, a commit of the Interrupt Source
Table, a reset of an entry's owner. -/
inductive Withdrawal where
  | pendClr (a : Agent) (v : Word)
  | istCommit (a : Agent) (v : Word)
  | flr (f : Fid)
  deriving DecidableEq, Repr

/-- A read of CLAIM[k]: who reads, and the withdrawals that reach the IC in the same FCLK cycle, which come first (R316). -/
structure ClaimRead where
  agent     : Agent
  withdrawn : List Withdrawal
  deriving DecidableEq, Repr

/-- The other pair's BUF_ALLOC (R290): its context, and how many cycles after this one its first request reaches the BPM. -/
structure AllocRival where
  ctx   : Ctx
  after : Nat
  deriving DecidableEq, Repr

/-- The commands, in the order of the operation table. -/
inductive Instr where
  -- Aelxia packets: the packet in context `c` runs at its keystone
  | nop (c : Ctx)
  | devQuery (c : Ctx)
  | sessConfig (c : Ctx)
  | sessEnable (c : Ctx)
  | consistencyCheck (sess : Fin 512)
  | sessDisable (c : Ctx)
  | sessSnapshot (c : Ctx)
  | encFrame (c : Ctx)
  | encFlush (c : Ctx)
  | stairSet (c : Ctx)
  | hintAttach (c : Ctx)
  | decData (c : Ctx) (items : List UnitItem)
  | decFlush (c : Ctx)
  | decBurst (c : Ctx) (items : List (List UnitItem))
  | keyImport (c : Ctx) (blob : HostRead)
  | attest (c : Ctx) (nonce : HostRead) (outOk : Bool)
  | keyErase (c : Ctx)
  | bufAlloc (c : Ctx) (rival : Option AllocRival)
  | bufFree (c : Ctx)
  | bufShare (c : Ctx)
  | dmaKick (c : Ctx)
  | flowSet (c : Ctx)
  | faultInject (c : Ctx)
  | faultAck (c : Ctx)
  | powerCap (c : Ctx)
  | codeStatus (c : Ctx)
  | fwRecover (c : Ctx) (image : HostRead)
  | firmwareWriteEnd (readBackOk : Bool)
  | loggiaCustom (c : Ctx)
  | fwRecoverMailbox (image : HostRead)
  -- queues
  | doorbellSubmission (f : Fid) (offset size : Nat) (v : BitVec 64)
  | doorbellCompletion (f : Fid) (offset size : Nat) (v : BitVec 64)
  | fetchBatch (q : Fin 8192) (entries : List (List Word))
  | packetDispatch (q : Fin 8192)
  | completionWrite (q : Fin 8192)
  -- microwords
  | microNop (c : Ctx) (m : Mw)
  | movi (c : Ctx) (m : Mw)
  | movhi (c : Ctx) (m : Mw)
  | mov (c : Ctx) (m : Mw)
  | add (c : Ctx) (m : Mw)
  | sub (c : Ctx) (m : Mw)
  | and (c : Ctx) (m : Mw)
  | or (c : Ctx) (m : Mw)
  | xor (c : Ctx) (m : Mw)
  | addi (c : Ctx) (m : Mw)
  | shl (c : Ctx) (m : Mw)
  | shr (c : Ctx) (m : Mw)
  | sar (c : Ctx) (m : Mw)
  | cmp (c : Ctx) (m : Mw)
  | cmpi (c : Ctx) (m : Mw)
  | jmp (c : Ctx) (m : Mw)
  | jz (c : Ctx) (m : Mw)
  | jnz (c : Ctx) (m : Mw)
  | jlt (c : Ctx) (m : Mw)
  | jge (c : Ctx) (m : Mw)
  | call (c : Ctx) (m : Mw)
  | ret (c : Ctx) (m : Mw)
  | lda (c : Ctx) (m : Mw)
  | rd (c : Ctx) (m : Mw) (stall : Nat)
  | wr (c : Ctx) (m : Mw)
  | rdp (c : Ctx) (m : Mw)
  | val (c : Ctx) (m : Mw)
  | bwin (c : Ctx) (m : Mw) (stall : Nat)
  | brd (c : Ctx) (m : Mw) (stall : Nat)
  | bwr (c : Ctx) (m : Mw)
  | lrd (c : Ctx) (m : Mw)
  | lwr (c : Ctx) (m : Mw)
  | key (c : Ctx) (m : Mw) (stall : Nat)
  | wait (c : Ctx) (m : Mw)
  | waitResume (c : Ctx) (cond : Fin 4)
  | done (c : Ctx) (m : Mw) (stall : Nat)
  | hand (c : Ctx) (m : Mw) (stall : Nat)
  | watchdogExpiry (c : Ctx)
  | pairMismatch (p : Fin 2)
  | pairSelfTestEnd (p : Fin 2) (pass : Bool)
  -- semaphores and mailboxes
  | semAcquire (n : Fin 64) (a : Agent) (rival : Option Fid)
  | semRelease (n : Fin 64) (a : Agent) (w : Release)
  | attach (n : Fin 64) (a : Agent)
  | detach (n : Fin 64) (a : Agent)
  | waitEmpty (n : Fin 64) (a : Agent)
  | mbxPush (n : Fin 64) (a : Agent) (v : Word)
  | mbxPop (n : Fin 64) (a : Agent)
  | crossedWait (n : Fin 64)
  -- windows
  | qtSel (a : Agent) (v : Word)
  | qtCommit (a : Agent) (v : Word) (rival : Option Fid)
  | istSel (a : Agent) (v : Word)
  | istCommit (a : Agent) (v : Word) (rival : Option Fid)
  | chSel (a : Agent) (v : Word)
  | chCommit (a : Agent) (v : Word) (rival : Option Fid)
  | clear (a : Agent) (v : Word)
  | stop (a : Agent) (v : Word)
  | snapSel (a : Agent) (v : Word)
  | statSel (a : Agent) (v : Word)
  | flowSel (a : Agent) (v : Word)
  | btSel (a : Agent) (v : Word)
  | keySlotSel (a : Agent) (v : Word)
  | histSel (a : Agent) (v : Word)
  | sessSel (a : Agent) (v : Word)
  | slotWrite (a : Agent) (v : Word)
  | swap (a : Agent) (v : Word)
  -- interrupt controller
  | srcPendSet (a : Agent) (v : Word)
  | srcPendClr (a : Agent) (v : Word)
  | claim (k : Fin 4) (c : ClaimRead)
  | complete (k : Fin 4) (a : Agent) (v : Word)
  | cpMaskWrite (k : Fin 4) (a : Agent) (v : Word)
  | grpHoldoffWrite (g : Fin 64) (a : Agent) (v : Word)
  | force (n : Fin 2) (a : Agent) (v : Word)
  -- control registers
  | reset (a : Agent) (v : Word)
  | engineEnSet (a : Agent) (v : Word)
  | deviceLevelCheck
  | engineEnClear (a : Agent) (v : Word)
  | switch (a : Agent) (v : Word)
  | refSel (p : Fin 2) (a : Agent) (v : Word)
  | timerArm (n : Fin 64) (a : Agent) (cmp : Bool) (v : Word)
  | minStep (a : Agent) (v : Word)
  | pairLoRead (a : Agent) (offset size : Nat)
  | pairHiWrite (a : Agent) (offset : Nat) (v : Word)
  | rcRead (a : Agent) (offset size : Nat)
  | registerWrite (a : Agent) (offset size : Nat) (v : BitVec 64)
  | apertureRead (f : Fid) (offset len : Nat)
  | apertureWrite (f : Fid) (offset : Nat) (data : List Byte)
  -- function power states and resets
  | d3hotEntry (f : Fid)
  | d0Return (f : Fid)
  | porNAssert (held : Nat)
  | porNDeassert (refs : BitVec 3) (smbAddr : BitVec 2) (testMode : Bool)
  | perstAssert (n : Fin 2) (held : Nat)
  | perstDeassert (n : Fin 2)
  | crsEnd (n : Fin 2)
  | hotReset (n : Fin 2)
  | linkDown (n : Fin 2)
  | flr (f : Fid)
  | vfEnableClear (n : Fin 2)
  | ideKm (n : Fin 2) (stream : IdeKey)
  | ideCheckFailed (n : Fin 2) (stream : Fin 4)
  | jtagAccess (i : JtagInst)
  -- management bus
  | pldmType2Request
  | pldmType5Request (n : Fin 2) (image : List Byte)
  | alertResponseRead
  | smbusStuckBus
  | pmbusPoll (r : List (Option PmbReading))
  | pmbAlert (r : List (Option PmbReading))
  -- start-up
  | rootLock
  | fuseSense
  | bankSelection
  | hbmTraining
  | spanSelfTestStartup (failEnc failDec : BitVec 18) (secPass : Bool)
  | fuseBlow (readBackOk : Bool)
  -- clocks and power
  | referenceLoss (missingRef : Bool)
  | pllRelock (p : Fin 2)
  | ptmDialogue (masterNs : Option Nat)
  | eventTimerExpiry (n : Fin 64)
  | powerCapLoop (mean : Nat)
  | thermalSample (tj : List (BitVec 8))
  | cclkStepChange (confirmed : Bool)
  | spanPowerGate (u : GateUnit)
  | unitWake (u : GateUnit)
  | deepIdleEntry
  | deepIdleExit (cause : DeepExit)
  | icWakeRestore
  -- memory controllers
  | selfRefreshEntry (n : Fin 4)
  | selfRefreshExit (n : Fin 4)
  | perBankRefresh (pc : Fin 128) (bank : Fin 32)
  | forcedRefresh (pc : Fin 128) (bank : Fin 32)
  | memoryArbiterDecision (g : Fin 24) (waiting : List MemReq) (found : LineOutcome)
  | combiningFlush (n : Fin 4) (stripe : Nat)
  | diagnosisEnd (g : Fin 24) (o : DiagOutcome)
  -- Viaduct and buffers
  | channelArbiterDecision
  | descriptorLoad (ch : Fin 256)
  | segmentReturn (ch : Fin 256) (data : List Byte)
  | busError (ch : Fin 256) (fromMemory : Bool)
  | transferComplete (ch : Fin 256)
  | bufferClear (pool : Fin 8) (index : Fin 131072)
  -- scheduler and frames; `frame` is the number the fetch gave the frame's packet
  | schedulerDecision (k : SpanKind) (sizeLog : Fin 3) (group : Fin 16)
  | slotWindowOpen (slot : Fin 64)
  | roundBoundary
  | deadlineDrop (frame : Nat)
  | conditioningRow (vb : Fin 4)
  | mezzanineAnalysis (frame : Nat) (intra inter : List Nat)
  | pierReached (frame : Nat) (member : Fin 4) (a : Lane) (b : Option Lane) (parityError : Bool)
  | decodeRowEnd (frame : Nat) (row : RowEnd)
  | crossing (frame : Nat) (content : List StepContent) (pic : Option PictureInfo)
  -- Tollgate
  | writerWait (flow : Fin 4096)
  | headLandingFill (flow : Fin 4096) (poisoned : Option (Nat × Nat))
  | tokenRefill
  | packetGrant (sched : Fin 3)
  | consumerIndexRead (flow : Fin 4096) (index : Option Word)
  -- interrupt delivery
  | interruptDelivery (source : Fin 1023)
  | holdoffWindowEnd (g : Fin 64)
  -- faults
  | spanCheckFailed (k : SpanKind) (i : Fin 18) (corrected : Bool)
  | spanHang (k : SpanKind) (i : Fin 18)
  | spareTakeover (k : SpanKind) (logical : Fin 16)
  | spanSelfTestEnd (k : SpanKind) (i : Fin 18) (pass : Bool)
  | detourReplay (frame : Nat)
  | vestibuleCheckFailed (n : Fin 4)
  | mezzanineCheckFailed (n : Fin 4) (frame : Nat)
  | stagingParityError (ch : Fin 256)
  | controlTableError (table : Fin 7) (corrected : Bool)
  | securitySelfCheckFailed
  | injectedFaultFire (packet : Nat)
  | groundFloorService (pass0 pass1 : Bool)
  -- links
  | linkUp (n : Fin 2) (speed : Fin 7) (width : Fin 17) (flit : Bool)
  | linkPmTransition (n : Fin 2) (pm : Fin 5)
  | vfEnableSet (n : Fin 2) (numVfs : Fin 64)
  | ptmEnableWrite (n : Fin 2) (en : Bool)
  | msiXMaskWrite (f : Fid) (vector : Option (Fin 2048)) (masked : Bool)
  | stackTemperatureChange (n : Fin 4) (temp : BitVec 8)
  | vddCoreTrim (steps : Fin 21)
  | spdmMessage (n : Fin 2) (authenticates : Bool)
deriving DecidableEq, Repr

end Sys2Proof
end

