-- ==== Sys2Proof/Decode.lean ====
section
/-! DEFINITION. The command a table word spells. The operation table gives bits to none of its rows: the
commands are register accesses, packets, bus and pin events and the device's own events, and none is spelled
by a word of its own (log 1). -/

namespace Sys2Proof

/-- The command that a word of `nbits` bits spells by the table's bits: none, since no row has any. -/
def decodeTableWord (_nbits _w : Nat) : Option Instr := none

end Sys2Proof
end

