-- ==== Sys2Proof/Config.lean ====
section
/-! DEFINITION. What the spec leaves open: values that some implementation produces and this model does not
know. Each is an opaque constant, so no proof can see a value of it. -/

namespace Sys2Proof.Config

/-- A fresh word the spec leaves open: the step supplies the index from `State.free` and advances it
(log 3). -/
opaque freeWord : Nat → BitVec 32

/-- What byte `a` of device memory reads as when nothing has written it since the `n`-th event that leaves
device memory undefined (R266 for a change of AMAP, HBM training before stage 4 zeroes it). -/
opaque freeByte : Nat → Nat → BitVec 8

/-- What byte `a` of the output buffer of a decoded picture reads as before the picture's completion, for the free index
taken at its packet's keystone (R33, R222). -/
opaque outputByte : Nat → Nat → BitVec 8

/-- What byte `a` of a poisoned line carries when an aperture read returns it, for the step's free index (R279). -/
opaque poisonByte : Nat → Nat → BitVec 8

/-- SHAKE256 with the output length in bytes (R353–R364). The spec names the standard and gives no
algorithm, so the function is not interpreted here (log 4). -/
opaque shake256 : Nat → List (BitVec 8) → List (BitVec 8)

/-- Falcon-1024 verification of a signature over a digest under a public key (R349, R357). -/
opaque falconVerify : List (BitVec 8) → List (BitVec 8) → List (BitVec 8) → Bool

/-- Falcon-1024 deterministic key generation from a 48-byte seed: the public key (R353). -/
opaque falconPublic : List (BitVec 8) → List (BitVec 8)

/-- Falcon-1024 signature of a message under the key generated from a seed (R361). -/
opaque falconSign : List (BitVec 8) → List (BitVec 8) → List (BitVec 8)

/-- ML-KEM-1024 encapsulation key generated from the 64 bytes d, z (R353). -/
opaque kemPublic : List (BitVec 8) → List (BitVec 8)

/-- ML-KEM-1024 decapsulation with the key generated from the 64 bytes d, z; none when it fails (R363). -/
opaque kemDecaps : List (BitVec 8) → List (BitVec 8) → Option (List (BitVec 8))

/-- AES-256-GCM decryption: key, IV, additional data, ciphertext, tag; none when the tag fails (R349, R363). -/
opaque gcmOpen : List (BitVec 8) → List (BitVec 8) → List (BitVec 8) → List (BitVec 8) → List (BitVec 8) →
  Option (List (BitVec 8))

/-- AES-256-GCM encryption: key, IV, additional data, plaintext; ciphertext followed by the tag (R252). -/
opaque gcmSeal : List (BitVec 8) → List (BitVec 8) → List (BitVec 8) → List (BitVec 8) → List (BitVec 8)

/-- Parity of a landing word's tag (R247): how a tag is coded is open. -/
opaque tagParity : Nat → Bool

/-- DEVICE_SECRET, fuse bits 2,240–2,495 (R351): fixed at the factory and never shown. -/
opaque deviceSecret : List (BitVec 8)

/-- PATCH_KEY, fuse bits 1,984–2,239 (R351): common to a stepping and never shown. -/
opaque patchKey : List (BitVec 8)

/-- The device certificate in the boot flash (R354), 1,536 bytes as stored. -/
opaque certificate : List (BitVec 8)

/-- The length in bytes of an active record's SHAKE256 check (R355); no rule gives it. -/
opaque recordCheckLength : Nat

/-- What the last 64 KiB sector of a bank holds behind an image that does not fill it (R360), for the step's free index and the place
behind the image. -/
opaque sectorTail : Nat → Nat → BitVec 8

/-- What a region of flash holds after a write that did not read back (R360), for the step's free index. -/
opaque flashResidue : Nat → List (BitVec 8)

/-- The address at which the vendor's event routine begins in context 7 (R333, R341); no rule gives it (log 85). -/
opaque eventEntry : BitVec 16

/-- What the vendor service entry at 0x0100 + n leaves in G0 (R347); its list is in no file of the spec. -/
opaque serviceResult : Nat → Nat → BitVec 32

/-- The vector that a codec's standard predicts for a block toward a reference from its left, upper and upper-right neighbours
inside its tile or slice (R156): the codec, the reference's place in the list, and each neighbour's references and vectors in
quarter samples. -/
opaque predictedVector : Nat → Nat → List (List (Nat × Int × Int)) → Int × Int

/-- The merge, skip or reference vector candidates that a codec's standard makes of the references and vectors around a block
(Table 07-2, R160): the codec, and those of the left, upper, upper-right, lower-left and upper-left neighbours. -/
opaque mergeCandidates : Nat → List (List (Nat × Int × Int)) → List (List (Nat × Int × Int))

/-- The cost by which the fine search ranks whole places (R155), of the differences of a block; no rule names it. -/
opaque integerCost : List (List Int) → Nat

/-- The sum of absolute Hadamard-transformed differences of a block (R158, R192); its transform sizes and scale are open. -/
opaque hadamard : List (List Int) → Nat

/-- DC, planar, horizontal and vertical prediction (0 to 3) of the 8 × 8 block at a place of the analysis copy (R192). -/
opaque analysisPrediction : Nat → List (List Nat) → Nat → Nat → List (List Nat)

/-- AES-128 of one block of 16 bytes under a key, and its inverse (R226). -/
opaque aesEncrypt : List (BitVec 8) → List (BitVec 8) → List (BitVec 8)
opaque aesDecrypt : List (BitVec 8) → List (BitVec 8) → List (BitVec 8)

/-- A sample of a plane between whole places under a codec's interpolation filter: the place across and down as numerators over
two denominators (R237). -/
opaque fractionalSample : Nat → List (List Nat) → Int → Int → Nat → Nat → Nat

/-- The state of a codec's parser after some rows of a picture, from the clear bytes of its unit (R217, R226). -/
opaque parserState : Nat → List (BitVec 8) → Nat → List (BitVec 8)

/-- A plane at another size under VVC's reference picture resampling (R238): width and height. -/
opaque resampled : List (List Nat) → Nat → Nat → List (List Nat)

/-- λ of mode decision at a lane's row QP, in units of 1/65,536 (R158): the codec and the QP. -/
opaque lambda : Nat → Nat → Nat

/-- A sample of the quarter-scale copy that a span makes of a reconstruction's luma (R155), by column and line; the spec does not
give its filter. -/
opaque quarterSample : List (List Nat) → Nat → Nat → BitVec 8

/-- The Golomb–Rice parameter chosen for the residuals of an 8 × 8 block, and the bits that name it (R195); no rule gives them. -/
opaque riceParameter : List Int → Nat
opaque riceHeader : Nat

end Sys2Proof.Config
end

