-- ==== Sys2Proof/Machine/Bits.lean ====
section
/-! DEFINITION. Fields of words, rounding and byte order: the helpers every rule of the spec uses. -/

namespace Sys2Proof.Machine

/-- Bits [lo + len − 1 : lo] of a word as a number. -/
def fld (w : Word) (lo len : Nat) : Nat := (w.extractLsb' lo len).toNat

/-- Bit `i` of a word. -/
def bit (w : Word) (i : Nat) : Bool := w.getLsbD i

/-- The word with ones in [lo + len − 1 : lo]. -/
def fmask (lo len : Nat) : Word := BitVec.ofNat 32 ((2 ^ len - 1) * 2 ^ lo)

/-- The word with field [lo + len − 1 : lo] set to `v`, cut to the field. -/
def setFld (w : Word) (lo len v : Nat) : Word :=
  (w &&& ~~~(fmask lo len)) ||| (BitVec.ofNat 32 (v % 2 ^ len * 2 ^ lo))

/-- The word with bit `i` set to `b`. -/
def setBit (w : Word) (i : Nat) (b : Bool) : Word := setFld w i 1 (if b then 1 else 0)

/-- One field value at its place, for building a word. -/
def at_ (lo v : Nat) : Word := BitVec.ofNat 32 (v * 2 ^ lo)

/-- A number for a Boolean field. -/
def b2n (b : Bool) : Nat := if b then 1 else 0

/-- `n + 1`, held at `2^len − 1`. -/
def satInc (len n : Nat) : Nat := min (n + 1) (2 ^ len - 1)

/-- `n + k`, held at `2^len − 1`. -/
def satAdd (len n k : Nat) : Nat := min (n + k) (2 ^ len - 1)

/-- The pair hi:lo as one 64-bit number (R3). -/
def pair64 (hi lo : Word) : Nat := hi.toNat * 2 ^ 32 + lo.toNat

/-- Bits [31:0] of a number. -/
def loW (n : Nat) : Word := BitVec.ofNat 32 n

/-- Bits [63:32] of a number. -/
def hiW (n : Nat) : Word := BitVec.ofNat 32 (n / 2 ^ 32)

/-- Division rounded up. -/
def ceilDiv (a b : Nat) : Nat := (a + b - 1) / b

/-- Division rounded half up (R182). -/
def roundDiv (a b : Nat) : Nat := (2 * a + b) / (2 * b)

/-- Division of an integer rounded half away from zero (R136, R161). -/
def roundAway (a : Int) (b : Nat) : Int :=
  if 0 ≤ a then (2 * a + b) / (2 * b) else -((2 * (-a) + b) / (2 * b))

/-- The number of bits needed to reach `n`: ceil(log2 n) for n ≥ 1, by counting powers. -/
def ceilLog2 (n : Nat) : Nat :=
  ((List.range 33).find? fun k => n ≤ 2 ^ k).getD 33

/-- A 32-bit word from a signed number. -/
def ofI (i : Int) : Word := BitVec.ofInt 32 i

/-- `x` moved into [lo, hi]. -/
def clampI (lo hi x : Int) : Int := max lo (min hi x)

/-- `x` moved into [lo, hi]. -/
def clampN (lo hi x : Nat) : Nat := max lo (min hi x)

/-- Sign of an integer. -/
def sgn (i : Int) : Int := if i > 0 then 1 else if i < 0 then -1 else 0

/-- The bytes of a word, least significant first (R3). -/
def wordBytes (w : Word) : List Byte :=
  [w.extractLsb' 0 8, w.extractLsb' 8 8, w.extractLsb' 16 8, w.extractLsb' 24 8]

/-- A word from up to four bytes, least significant first; missing bytes are 0. -/
def wordOfBytes (b : List Byte) : Word :=
  BitVec.ofNat 32 ((b.getD 0 0).toNat + 256 * (b.getD 1 0).toNat + 65536 * (b.getD 2 0).toNat +
    16777216 * (b.getD 3 0).toNat)

/-- Words of a byte list, `n` of them. -/
def wordsOfBytes (n : Nat) (b : List Byte) : List Word :=
  (List.range n).map fun i => wordOfBytes ((b.drop (4 * i)).take 4)

/-- The bytes of a list of words (R3). -/
def bytesOfWords (ws : List Word) : List Byte := ws.flatMap wordBytes

/-- A number of `n` bytes, least significant first. -/
def natBytes (n v : Nat) : List Byte := (List.range n).map fun i => BitVec.ofNat 8 (v / 256 ^ i)

/-- A number from bytes, least significant first. -/
def natOfBytes : List Byte → Nat
  | [] => 0
  | b :: r => b.toNat + 256 * natOfBytes r

/-- Bytes `lo` to `lo + n − 1` of a byte list. -/
def slice (b : List Byte) (lo n : Nat) : List Byte := (b.drop lo).take n

/-- The `n`-th word of a list; 0 beyond its end. -/
def wd (ws : List Word) (n : Nat) : Word := ws.getD n 0

/-- Every word of the list is 0. -/
def allZero (ws : List Word) : Bool := ws.all (· == 0)

/-- `n` zero words. -/
def zeros (n : Nat) : List Word := List.replicate n 0

/-- The list with element `i` set, extended with zeros when it is shorter. -/
def setWd (ws : List Word) (i : Nat) (v : Word) : List Word :=
  if i < ws.length then ws.set i v else ws ++ zeros (i - ws.length) ++ [v]

end Sys2Proof.Machine
end

