-- ==== Sys2Proof/Machine/Regs.lean ====
section
/-! DEFINITION. The register window of the K128 (R416): where each register stands and what it holds after
reset. A register that is a plain word lives in `State.regs` under its offset; the windows, locks and tables
behind the other offsets have homes of their own. -/

namespace Sys2Proof.Machine.Reg

-- DEV, Table 19-4
abbrev devCtrl : Nat := 0x000000
abbrev devStatus : Nat := 0x000004
abbrev devId : Nat := 0x000008
abbrev devFunc : Nat := 0x00000C
abbrev portStatus (n : Nat) : Nat := 0x000010 + 4 * n
abbrev apwinLo : Nat := 0x000018
abbrev apwinHi : Nat := 0x00001C
abbrev fwVersion : Nat := 0x000020
abbrev patchVersion : Nat := 0x000024
abbrev protoEvents (n : Nat) : Nat := 0x000028 + 4 * n
abbrev scratch (n : Nat) : Nat := 0x000030 + 4 * n
abbrev sessSel : Nat := 0x000038
abbrev sessHalf : Nat := 0x00003C
-- CLKPWR, Table 19-5
abbrev pllCtrl (n : Nat) : Nat := 0x010000 + 4 * n
abbrev rootCtrl : Nat := 0x010008
abbrev pllStatus : Nat := 0x01000C
abbrev stepCtrl : Nat := 0x010010
abbrev pwrStatus : Nat := 0x010014
abbrev power : Nat := 0x010018
abbrev therm : Nat := 0x01001C
abbrev gated (k : Nat) : Nat := 0x010020 + 4 * k
abbrev pmbCfg : Nat := 0x010028
abbrev pmbAddr : Nat := 0x01002C
abbrev pmbStatus (n : Nat) : Nat := 0x010030 + 4 * n
abbrev vtrim : Nat := 0x010040
abbrev energy : Nat := 0x010044
abbrev stepMs (k : Nat) : Nat := 0x010048 + 4 * k
abbrev refPpm (r : Nat) : Nat := 0x010054 + 4 * r
abbrev estClass (c : Nat) : Nat := 0x010060 + 4 * c
abbrev deepMs : Nat := 0x01007C
abbrev hbmTemp (n : Nat) : Nat := 0x010080 + 4 * n
abbrev pmbVout (n : Nat) : Nat := 0x010090 + 4 * n
abbrev pmbIout (n : Nat) : Nat := 0x0100A0 + 4 * n
abbrev pmbPout (n : Nat) : Nat := 0x0100B0 + 4 * n
abbrev tsense (i : Nat) : Nat := 0x010100 + 4 * i
-- FUSE, Table 19-6
abbrev hashSel : Nat := 0x020000
abbrev locks : Nat := 0x020004
abbrev portRights : Nat := 0x020008
abbrev spareMap : Nat := 0x02000C
abbrev fuseStatus : Nat := 0x020010
abbrev arbLo : Nat := 0x020014
abbrev arbHi : Nat := 0x020018
abbrev part : Nat := 0x02001C
abbrev serial (i : Nat) : Nat := 0x020020 + 4 * i
abbrev mfg (i : Nat) : Nat := 0x020030 + 4 * i
abbrev hbmRepair (i : Nat) : Nat := 0x020040 + 4 * i
abbrev hashWord (i : Nat) : Nat := 0x020080 + 4 * i
-- SEM, Table 19-7
abbrev semLock (n : Nat) : Nat := 0x030000 + 4 * n
abbrev tieNext : Nat := 0x030100
abbrev semEvent : Nat := 0x030104
-- MBX, Table 19-8
abbrev chCtrl (n : Nat) : Nat := 0x040000 + 4 * n
abbrev chStatus (n : Nat) : Nat := 0x040100 + 4 * n
abbrev outWord (n : Nat) : Nat := 0x040200 + 4 * n
abbrev inWord (n : Nat) : Nat := 0x040300 + 4 * n
abbrev crossTicks : Nat := 0x040400
abbrev pendLo : Nat := 0x040404
abbrev pendHi : Nat := 0x040408
abbrev endsFree : Nat := 0x04040C
-- IC, Table 19-9
abbrev icCtrl : Nat := 0x050000
abbrev srcPendSet : Nat := 0x050004
abbrev srcPendClr : Nat := 0x050008
abbrev restores : Nat := 0x05000C
abbrev cpCtrl (k : Nat) : Nat := 0x050010 + 4 * k
abbrev icClaim (k : Nat) : Nat := 0x050020 + 4 * k
abbrev icComplete (k : Nat) : Nat := 0x050030 + 4 * k
abbrev wakeCtrl (n : Nat) : Nat := 0x050040 + 4 * n
abbrev istSel : Nat := 0x050048
abbrev istCommit : Nat := 0x05004C
abbrev istStatus : Nat := 0x050050
abbrev grpPendLo : Nat := 0x050054
abbrev grpPendHi : Nat := 0x050058
abbrev grpOpenLo : Nat := 0x05005C
abbrev grpOpenHi : Nat := 0x050060
abbrev msgCount (n : Nat) : Nat := 0x050064 + 4 * n
abbrev istData (w : Nat) : Nat := 0x050070 + 4 * w
abbrev grpHoldoff (g : Nat) : Nat := 0x050100 + 4 * g
-- TMR, Table 19-10
abbrev timeLo : Nat := 0x060000
abbrev timeHi : Nat := 0x060004
abbrev syncSrc : Nat := 0x060008
abbrev syncStatus : Nat := 0x06000C
abbrev timerCtrl (n : Nat) : Nat := 0x060100 + 4 * n
abbrev timerCmp (n : Nat) : Nat := 0x060200 + 4 * n
-- FC, Table 19-11
abbrev fcStatus : Nat := 0x070000
abbrev headSeq : Nat := 0x070004
abbrev gfCause : Nat := 0x070008
abbrev histSel : Nat := 0x07000C
abbrev injCtrl : Nat := 0x070010
abbrev simSeq : Nat := 0x070014
abbrev injPending : Nat := 0x070018
abbrev capStatus : Nat := 0x07001C
abbrev escalations : Nat := 0x070020
abbrev merged : Nat := 0x070024
abbrev classCount (c : Nat) : Nat := 0x070028 + 4 * c
abbrev lastSeq (c : Nat) : Nat := 0x070034 + 4 * c
abbrev histWord (w : Nat) : Nat := 0x070040 + 4 * w
abbrev kindCount (k : Nat) : Nat := 0x070080 + 4 * k
-- QT, Table 19-12
abbrev qtSel : Nat := 0x080000
abbrev qtCommit : Nat := 0x080004
abbrev qtStatus : Nat := 0x080008
abbrev funcInflight : Nat := 0x08000C
abbrev funcLimit : Nat := 0x080010
abbrev freeCount : Nat := 0x080014
abbrev portReady (n : Nat) : Nat := 0x080018 + 4 * n
abbrev qtData (w : Nat) : Nat := 0x080020 + 4 * w
-- DMA, Table 19-13
abbrev chSel : Nat := 0x0A0000
abbrev chCommit : Nat := 0x0A0004
abbrev dmaChStatus : Nat := 0x0A0008
abbrev chCmd : Nat := 0x0A000C
abbrev chRetry : Nat := 0x0A0010
abbrev dmaArbCfg : Nat := 0x0A0014
abbrev stageUsed : Nat := 0x0A0018
abbrev stagePeak : Nat := 0x0A001C
abbrev outstanding (n : Nat) : Nat := 0x0A0020 + 4 * n
abbrev outstandingDev : Nat := 0x0A0028
abbrev assignedCount : Nat := 0x0A002C
abbrev kicksQueued : Nat := 0x0A0030
abbrev busErrors : Nat := 0x0A0034
abbrev retries : Nat := 0x0A0038
abbrev descErrors : Nat := 0x0A003C
abbrev chData (w : Nat) : Nat := 0x0A0040 + 4 * w
abbrev readBytesLo : Nat := 0x0A0050
abbrev readBytesHi : Nat := 0x0A0054
abbrev writeBytesLo : Nat := 0x0A0058
abbrev writeBytesHi : Nat := 0x0A005C
abbrev runMask (i : Nat) : Nat := 0x0A0080 + 4 * i
abbrev waitMask (i : Nat) : Nat := 0x0A00A0 + 4 * i
abbrev haltMask (i : Nat) : Nat := 0x0A00C0 + 4 * i
-- BPM, Table 19-14
abbrev btSel : Nat := 0x0C0000
abbrev totalAllocs : Nat := 0x0C0004
abbrev totalFrees : Nat := 0x0C0008
abbrev freeRefused : Nat := 0x0C000C
abbrev btWord (w : Nat) : Nat := 0x0C0010 + 4 * w
abbrev poolCfg (p : Nat) : Nat := 0x0C0020 + 4 * p
abbrev poolStat (p : Nat) : Nat := 0x0C0040 + 4 * p
abbrev poolDrain (p : Nat) : Nat := 0x0C0060 + 4 * p
abbrev poolRetired (p : Nat) : Nat := 0x0C0080 + 4 * p
-- PACE, Table 19-15
abbrev flowSel : Nat := 0x0E0000
abbrev flowsRun : Nat := 0x0E0004
abbrev flowsHalted : Nat := 0x0E0008
abbrev flightMib : Nat := 0x0E000C
abbrev poisonCount : Nat := 0x0E0010
abbrev haltEvents : Nat := 0x0E0014
abbrev parityErrors : Nat := 0x0E0018
abbrev schedPackets (k : Nat) : Nat := 0x0E0020 + 4 * k
abbrev schedBytesLo (k : Nat) : Nat := 0x0E0030 + 4 * k
abbrev schedBytesHi (k : Nat) : Nat := 0x0E0040 + 4 * k
abbrev flowWord (w : Nat) : Nat := 0x0E0080 + 4 * w
-- MC, Table 19-16
abbrev mcCtrl : Nat := 0x100000
abbrev arbPrio : Nat := 0x100004
abbrev mcArbCfg : Nat := 0x100008
abbrev rplSel : Nat := 0x10000C
abbrev rplData : Nat := 0x100010
abbrev rplStatus : Nat := 0x100014
abbrev scrubPasses : Nat := 0x100018
abbrev diagCount : Nat := 0x10001C
abbrev diagStat (n : Nat) : Nat := 0x100100 + 0x10000 * n
abbrev diagLoc (n : Nat) : Nat := 0x100104 + 0x10000 * n
abbrev diagAddrLo (n : Nat) : Nat := 0x100108 + 0x10000 * n
abbrev diagAddrHi (n : Nat) : Nat := 0x10010C + 0x10000 * n
abbrev diagSynd (n : Nat) : Nat := 0x100110 + 0x10000 * n
abbrev diagTimeLo (n : Nat) : Nat := 0x100114 + 0x10000 * n
abbrev diagTimeHi (n : Nat) : Nat := 0x100118 + 0x10000 * n
abbrev stackStatus (n : Nat) : Nat := 0x10011C + 0x10000 * n
abbrev bwRead (n : Nat) : Nat := 0x100120 + 0x10000 * n
abbrev bwWrite (n : Nat) : Nat := 0x100124 + 0x10000 * n
abbrev combineOpen (n : Nat) : Nat := 0x100128 + 0x10000 * n
abbrev scrubPos (n : Nat) : Nat := 0x10012C + 0x10000 * n
abbrev srCount (n : Nat) : Nat := 0x100130 + 0x10000 * n
abbrev postponeMax (n : Nat) : Nat := 0x100134 + 0x10000 * n
abbrev sgStatus (g : Nat) : Nat := 0x100200 + 0x10000 * (g / 6) + 4 * (g % 6)
abbrev sgRebuild (g : Nat) : Nat := 0x100220 + 0x10000 * (g / 6) + 4 * (g % 6)
abbrev sgCorrected (g : Nat) : Nat := 0x100240 + 0x10000 * (g / 6) + 4 * (g % 6)
abbrev sgPartial (g : Nat) : Nat := 0x100260 + 0x10000 * (g / 6) + 4 * (g % 6)
-- SPAN, Table 19-17
abbrev slotSel : Nat := 0x140000
abbrev slotCtrl : Nat := 0x140004
abbrev roundTicks : Nat := 0x140008
abbrev roundBaseLo : Nat := 0x14000C
abbrev roundBaseHi : Nat := 0x140010
abbrev schedCfg : Nat := 0x140014
abbrev statSel : Nat := 0x140018
abbrev roundCount : Nat := 0x14001C
abbrev slotData (w : Nat) : Nat := 0x140020 + 4 * w
abbrev overcommitCount : Nat := 0x14002C
abbrev unreserved (k : Nat) : Nat := 0x140030 + 4 * k
abbrev homeSize (k : Nat) : Nat := 0x140038 + 4 * k
abbrev mapEs (r : Nat) : Nat := 0x140040 + 4 * r
abbrev mapDs (r : Nat) : Nat := 0x140050 + 4 * r
abbrev spanRetired (k : Nat) : Nat := 0x140060 + 4 * k
abbrev spanBusy (k : Nat) : Nat := 0x140068 + 4 * k
abbrev spanSelfTest (k : Nat) : Nat := 0x140070 + 4 * k
abbrev burstRows : Nat := 0x140078
abbrev detours : Nat := 0x14007C
abbrev statWord (w : Nat) : Nat := 0x140080 + 4 * w
-- CONC, Table 19-18
abbrev snapSel : Nat := 0x180000
abbrev concStatus : Nat := 0x180004
abbrev lastAbort : Nat := 0x180008
abbrev loggia : Nat := 0x18000C
abbrev loggiaVersion : Nat := 0x180010
abbrev contexts : Nat := 0x180014
abbrev dispatched : Nat := 0x180018
abbrev keyGapPeak : Nat := 0x18001C
abbrev snapWord (w : Nat) : Nat := 0x180040 + 4 * w
-- SEC, Table 19-19
abbrev bootStatus : Nat := 0x1C0000
abbrev keySlotSel : Nat := 0x1C0004
abbrev secSelftest : Nat := 0x1C0008
abbrev unwrapFails : Nat := 0x1C000C
abbrev imports : Nat := 0x1C0010
abbrev fwWrite : Nat := 0x1C0014
abbrev ideStatus (n : Nat) : Nat := 0x1C0018 + 4 * n
abbrev keySlotWord (w : Nat) : Nat := 0x1C0020 + 4 * w
abbrev deviceId (i : Nat) : Nat := 0x1C0030 + 4 * i
abbrev loadedMask (i : Nat) : Nat := 0x1C0040 + 4 * i
abbrev erasingMask (i : Nat) : Nat := 0x1C0050 + 4 * i

/-- A run of registers: offset of the first, how many, and the distance between two. -/
structure Row where
  base : Nat
  count : Nat
  step : Nat
deriving DecidableEq, Repr

/-- Does the offset hold a register of this run? -/
def Row.has (r : Row) (off : Nat) : Bool :=
  decide (r.base ≤ off) && decide ((off - r.base) % r.step = 0) && decide ((off - r.base) / r.step < r.count)

/-- The registers of Table 19-4 to Table 19-19, block by block. -/
def rows : List Row :=
  [⟨0x000000, 14, 4⟩, ⟨0x000038, 34, 4⟩] ++
  [⟨0x010000, 48, 4⟩, ⟨0x010100, 24, 4⟩] ++
  [⟨0x020000, 24, 4⟩, ⟨0x020080, 16, 4⟩] ++ [⟨0x030000, 66, 4⟩] ++
  [⟨0x040000, 64, 4⟩, ⟨0x040100, 64, 4⟩, ⟨0x040200, 64, 4⟩, ⟨0x040300, 64, 4⟩, ⟨0x040400, 4, 4⟩] ++
  [⟨0x050000, 27, 4⟩, ⟨0x050070, 5, 4⟩, ⟨0x050100, 64, 4⟩] ++
  [⟨0x060000, 4, 4⟩, ⟨0x060100, 64, 4⟩, ⟨0x060200, 64, 4⟩] ++
  [⟨0x070000, 16, 4⟩, ⟨0x070040, 8, 4⟩, ⟨0x070080, 16, 4⟩] ++
  [⟨0x080000, 8, 4⟩, ⟨0x080020, 8, 4⟩] ++
  [⟨0x0A0000, 16, 4⟩, ⟨0x0A0040, 8, 4⟩, ⟨0x0A0080, 24, 4⟩] ++
  [⟨0x0C0000, 8, 4⟩, ⟨0x0C0020, 32, 4⟩] ++
  [⟨0x0E0000, 7, 4⟩, ⟨0x0E0020, 3, 4⟩, ⟨0x0E0030, 3, 4⟩, ⟨0x0E0040, 3, 4⟩, ⟨0x0E0080, 16, 4⟩] ++
  [⟨0x100000, 8, 4⟩] ++
  ((List.range 4).flatMap fun n =>
    [⟨0x100100 + 0x10000 * n, 14, 4⟩, ⟨0x100200 + 0x10000 * n, 6, 4⟩, ⟨0x100220 + 0x10000 * n, 6, 4⟩,
     ⟨0x100240 + 0x10000 * n, 6, 4⟩, ⟨0x100260 + 0x10000 * n, 6, 4⟩]) ++
  [⟨0x140000, 8, 4⟩, ⟨0x140020, 24, 4⟩, ⟨0x140080, 16, 4⟩] ++
  [⟨0x180000, 8, 4⟩, ⟨0x180040, 16, 4⟩] ++ [⟨0x1C0000, 24, 4⟩]

/-- The offset holds a register of Table 19-1 (R416); every other offset is unassigned (R417). -/
def assigned (off : Nat) : Bool := rows.any fun r => r.has off

/-- How many registers the window holds (R416). -/
def total : Nat := (rows.map (·.count)).foldl (· + ·) 0

/-- Reset counts of the buffer pools (Table 13-2). -/
def poolReset (p : Nat) : Nat :=
  [0x8000, 0x8000, 0x8000, 0x4000, 0x2000, 0x1000, 0x0A00, 0x0600].getD p 0

/-- MEMBERS of stripe group `g` as start-up forms it (R263), with STATE 0 and MEMBER_OUT 7. -/
def sgReset (g : Nat) : Word :=
  let b := 5 * (g % 6)
  at_ 26 7 ||| at_ 20 (b + 4) ||| at_ 15 (b + 3) ||| at_ 10 (b + 2) ||| at_ 5 (b + 1) ||| at_ 0 b

/-- The reset column of Tables 19-4 to 19-19 for registers that are plain words; 0 for every other. -/
def resetValue (off : Nat) : Word :=
  if off = devId then 0x012800A1
  else if off = portStatus 0 ∨ off = portStatus 1 then 5
  else if off = power then 0x0B400000
  else if off = gated 0 ∨ off = gated 1 then 0x3FFFF
  else if off = pmbCfg then 0x10
  else if off = pmbAddr then 0x43424140
  else if refPpm 0 ≤ off ∧ off ≤ refPpm 2 then 0x8000
  else if off = crossTicks then 0x186A0
  else if cpCtrl 0 ≤ off ∧ off ≤ cpCtrl 3 then 0x80000000
  else if off = syncSrc then 0xA00
  else if off = chRetry then 3
  else if off = dmaArbCfg ∨ off = mcArbCfg then 0x40
  else if poolCfg 0 ≤ off ∧ off ≤ poolCfg 7 then BitVec.ofNat 32 (poolReset ((off - poolCfg 0) / 4))
  else if off = mcCtrl then 0x200
  else if off = arbPrio then 0xFB5B1B
  else if off % 0x10000 = 0x011C ∧ 0x100000 ≤ off ∧ off < 0x140000 then 0x20000000
  else if 0x0200 ≤ off % 0x10000 ∧ off % 0x10000 < 0x0218 ∧ 0x100000 ≤ off ∧ off < 0x140000 then
    sgReset (6 * ((off - 0x100000) / 0x10000) + (off % 0x10000 - 0x0200) / 4)
  else if off = roundTicks then 0x196E6B
  else if off = schedCfg then 8
  else 0

end Sys2Proof.Machine.Reg
end

