-- ==== Sys2Proof/Machine/Table.lean ====
section
/-! DEFINITION. Sparse tables: a list of (key, value) pairs with a default, as plain data. Every table and
every bank of registers of the machine is one of these. -/

namespace Sys2Proof.Machine

/-- A sparse table: keys rise strictly when it is built with `Tbl.put`. -/
abbrev Tbl (α : Type) := List (Nat × α)

/-- The value at key `k`, or `d` where the table has no entry. -/
def Tbl.get {α : Type} (t : Tbl α) (k : Nat) (d : α) : α :=
  match t with
  | [] => d
  | (j, v) :: r => if j = k then v else Tbl.get r k d

/-- The value at key `k`, if the table has an entry. -/
def Tbl.find {α : Type} (t : Tbl α) (k : Nat) : Option α :=
  match t with
  | [] => none
  | (j, v) :: r => if j = k then some v else Tbl.find r k

/-- The table with the value at key `k` set, in key order. -/
def Tbl.put {α : Type} (t : Tbl α) (k : Nat) (v : α) : Tbl α :=
  match t with
  | [] => [(k, v)]
  | (j, w) :: r =>
    if k < j then (k, v) :: (j, w) :: r
    else if k = j then (k, v) :: r
    else (j, w) :: Tbl.put r k v

/-- The table without an entry at key `k`. -/
def Tbl.del {α : Type} (t : Tbl α) (k : Nat) : Tbl α :=
  t.filter fun e => !(e.1 == k)

/-- The table with `f` applied to every value. -/
def Tbl.mapVal {α : Type} (t : Tbl α) (f : α → α) : Tbl α :=
  t.map fun e => (e.1, f e.2)

/-- The table with `f` applied to every value that satisfies `p` of its key and value. -/
def Tbl.mapIf {α : Type} (t : Tbl α) (p : Nat → α → Bool) (f : α → α) : Tbl α :=
  t.map fun e => (e.1, if p e.1 e.2 then f e.2 else e.2)

/-- How many entries satisfy `p`. -/
def Tbl.count {α : Type} (t : Tbl α) (p : Nat → α → Bool) : Nat :=
  (t.filter fun e => p e.1 e.2).length

/-- The keys whose values satisfy `p`, in table order. -/
def Tbl.keysWhere {α : Type} (t : Tbl α) (p : Nat → α → Bool) : List Nat :=
  (t.filter fun e => p e.1 e.2).map (·.1)

end Sys2Proof.Machine
end

