-- ==== Sys2Proof/Machine/State.lean ====
section
/-! DEFINITION. The state of the K128 as plain data, the reasons a step can stop, and the state after
reset: POR_N asserted, every register at its reset value. -/

namespace Sys2Proof.Machine

/-- Why the machine stops with a fault. -/
inductive Fault where
  /-- Raised by THERMAL_SAMPLE, PMBUS_POLL and PMB_ALERT when the operand does not name exactly the sensors
  or regulators there are: R10 says no other instance exists. Safe: no such event arises on the hardware. -/
  | noSuchInstance
deriving DecidableEq, Repr

/-- Why a command has no meaning here. -/
inductive Refusal where
  /-- An arm whose meaning is not written yet. Safe: nothing is claimed of it. -/
  | notModelled (mnemonic : String)
  /-- Raised by JTAG_ACCESS with an instruction other than IDCODE and BYPASS on a part whose DEBUG_LOCK is
  unblown: the spec says nothing of what such an instruction does (R368). Safe: the run stops. -/
  | jtagOpenPart
deriving DecidableEq, Repr

/-- What the last command sent out of the device or answered on a bus. `State.out` holds these; they are
observations, and no meaning reads them back. -/
inductive Emit where
  /-- Data of a register read (R21). -/
  | readWord (offset : Nat) (w : Word)
  /-- Data of an aperture read (R45). -/
  | readBytes (bs : List Byte)
  /-- Unsupported Request, as completion status of a read or through AER for a write (R45). -/
  | unsupportedRequest (fid : Nat)
  /-- A completion entry written to slot `slot` of queue `q` (R69). -/
  | completionEntry (q slot : Nat) (ws : List Word)
  /-- An MSI-X message of a vector (R315). -/
  | msix (fid vector : Nat)
  /-- A PME message of a function (R325). -/
  | pme (fid : Nat)
  /-- Bytes written to a PCIe bus address through the port of function `fid` (R80, R259, R305). -/
  | busWrite (fid addr : Nat) (bs : List Byte)
  /-- A read of a PCIe bus address whose data arrives as the operand of a later command (R298). -/
  | busRead (fid addr len : Nat)
  /-- A read that flushes the posted writes before it to a bus address (R80, R233, R305). -/
  | flushRead (fid addr : Nat)
  /-- A configuration write's completion (R324). -/
  | configDone (fid : Nat)
  /-- AER report: IDE Check Failed on a port (R369). -/
  | ideCheckFailed (port stream : Nat)
  /-- VOUT_COMMAND to the core regulator, in millivolts (R398, R407). -/
  | voutCommand (millivolts : Nat)
  /-- A PLDM answer on SMBus: its type and what it reports (R436). -/
  | pldm (ty : Nat) (ws : List Word)
  /-- The JTAG port shifts out IDCODE or the BYPASS bit (R368). -/
  | jtag (idcode : Bool)
  /-- SDA released and the SMBus interface reset (R436). -/
  | smbReset
  /-- The device answered an SPDM request (R369). -/
  | spdm (port : Nat) (authenticated : Bool)
  /-- A bus access that configuration-space CRS answers (R411). -/
  | crs (fid : Nat)
deriving DecidableEq, Repr

/-- A capture copy or table window of one function: what it last selected and the words captured (R419). -/
structure Window where
  sel : Word
  words : List Word
deriving DecidableEq, Repr

/-- What each function or control-processor pair has of its own in the register window (R8, R419, R420): one latch and one staging
register for each register pair, under the offset of its _LO half (DESIGN CHOICE, log 92). -/
structure AgentSt where
  /-- Latched _HI halves, by offset of the _LO register (R8). -/
  latch : Tbl Word
  /-- Staged _LO halves of writable pairs, by offset of the _LO register (R8). -/
  stage : Tbl Word
  /-- Capture copies, by offset of their select register (R419). -/
  win : Tbl Window
  /-- COMMIT_FAIL and FAIL_CAUSE of the last commit, by offset of the status register (Table 04-12). -/
  status : Tbl Word
  apwinLo : Word
  apwinHi : Word
  sessHalf : Bool
  hashSel : BitVec 2
deriving DecidableEq, Repr

/-- PCIe state of one function (R41, R315, R325). -/
structure FnSt where
  d3hot : Bool
  pmeEn : Bool
  pmeStatus : Bool
  /-- MSI-X Function Mask. -/
  funcMask : Bool
  /-- Class code in configuration space (Table 03-1). -/
  classCode : Nat
  /-- Vectors whose mask bit is clear. -/
  unmasked : List Nat
  /-- The Pending Bit Array: vectors with a message held. -/
  pba : List Nat
deriving DecidableEq, Repr

/-- PCIe state of one port (R41, R411, R431). -/
structure PortSt where
  /-- PERSTn_N is asserted. -/
  perst : Bool
  /-- Tick at which PERSTn_N, or POR_N if later, deasserted. -/
  releasedAt : Nat
  /-- Configuration space answers CRS (R411). -/
  crs : Bool
  /-- VFs that VF Enable has brought into existence: VF 1 to VF `numVfs` (R292). -/
  numVfs : Nat
  /-- PTM is enabled by configuration (R329). -/
  ptmEn : Bool
  /-- The PF was in D3hot when PERSTn_N was asserted: D3cold (R325). -/
  d3cold : Bool
  /-- An SPDM session in which the device authenticated with its AK is open (R369). -/
  spdmSecured : Bool
  /-- IDE streams with keys, and those that a failed check left Insecure, each with what it covers (R369). -/
  ideKeys : Tbl (List IdeUse)
  insecure : Tbl (List IdeUse)
deriving DecidableEq, Repr

/-- One end of a mailbox channel; `queue` is its outbound queue, oldest word first (R55–R59). -/
structure MbxEnd where
  owner : Nat
  waitEmpty : Bool
  dataIe : Bool
  aborted : Bool
  crossed : Bool
  overflow : Bool
  underflow : Bool
  abortCause : Nat
  discarded : Nat
  queue : List Word
deriving DecidableEq, Repr

/-- A mailbox channel with its crossed-wait detector (R59). -/
structure Mbx where
  e0 : MbxEnd
  e1 : MbxEnd
  /-- Start tick of the running window, if armed. -/
  window : Option Nat
  /-- The detector fired and waits for the arming conditions to fail. -/
  fired : Bool
  /-- Owner codes whose last attach was refused. -/
  attachFail : List Nat
deriving DecidableEq, Repr

/-- Target of an interrupt source (Table 14-2). -/
structure IstTarget where
  valid : Bool
  /-- KIND: the target is a control processor. -/
  isCp : Bool
  fid : Nat
  vector : Nat
deriving DecidableEq, Repr

/-- Interrupt Source Table entry (Table 14-2) with the cycle of the delivery in flight (R315). -/
structure IstEntry where
  en : Bool
  mask : Bool
  pend : Bool
  active : Bool
  rrNext : Nat
  owner : Nat
  targets : List IstTarget
  /-- FCLK cycle L of a delivery whose PEND clear at L + 4 is still to come. -/
  latched : Option Nat
  /-- Raised again in cycles L + 1 to L + 4. -/
  reRaised : Bool
  /-- CP that claimed it while ACTIVE. -/
  claimedBy : Option Nat
deriving DecidableEq, Repr

/-- A delivery latched in the current FCLK cycle, which a mask write of this cycle still stops (R318). -/
structure Latch where
  src : Nat
  /-- RR_NEXT before the delivery moved it. -/
  before : Nat
  /-- The function and vector of an MSI-X target, whose message leaves at the end of the cycle. -/
  msg : Option (Nat × Nat)
  /-- The delivery opened its group's window. -/
  opened : Bool
deriving DecidableEq, Repr

/-- The interrupt controller (R311–R321). -/
structure IcSt where
  ist : Tbl IstEntry
  /-- Request sets: (source, CP). -/
  reqs : List (Nat × Nat)
  /-- Cycle at which each requested source was latched (R318). -/
  reqAt : Tbl Nat
  /-- Open hold-off windows: group to start and end tick. -/
  wins : Tbl (Nat × Nat)
  /-- Vectors to which a message went in tick `sentAt`: one message per vector and tick (R315). -/
  sentAt : Nat
  sent : List (Nat × Nat)
  /-- Saved to retention and gated (R321). -/
  gated : Bool
  /-- Sources whose events the always-on detector latched while gated. -/
  caught : List Nat
  /-- Deliveries latched in the current FCLK cycle (R318). -/
  latches : List Latch
  /-- Functions that returned to D0 while the IC was gated: their sources go out at its restore (R325). -/
  returned : List Nat
deriving DecidableEq, Repr

/-- An event timer beyond TIMER_CTRL and TIMER_CMP, which arm it (R330, log 28). -/
structure TmrSt where
  /-- Tick of the last CMP write and the value before it. -/
  oldCmp : Option (Nat × Word)
  /-- Tick of a write of CMP that armed the timer, from the next tick on. -/
  idleAt : Option Nat
  /-- Tick of the last expiry: a tick has one check. -/
  doneAt : Option Nat
deriving DecidableEq, Repr

/-- Device time (R327, R328). -/
structure TimeSt where
  /-- TIME_HI:TIME_LO. -/
  now : Nat
  /-- FCLK cycle within the tick, 0–11. -/
  cycle : Nat
  /-- Device time runs: POR_N is deasserted. -/
  runs : Bool
  /-- Error still to slew or to catch down, in ticks (R328). -/
  err : Int
  /-- Raw ticks since the slew last added or dropped one; half-rate phase when SLOW. -/
  phase : Nat
  /-- Raw TCLK ticks, never corrected: places of periods that no rule ties to device time. -/
  raw : Nat
  /-- Dialogues failed in a row (R329). -/
  ptmFails : Nat
  /-- Raw tick of the last dialogue since SYNC_SRC was written (R328). -/
  lastSync : Option Nat
deriving DecidableEq, Repr

/-- A fault history entry (Table 17-4). -/
structure Hist where
  seq : Nat
  time : Nat
  cls : Nat
  injected : Bool
  escalated : Bool
  acked : Bool
  session : Option Nat
  unit : Nat
  code : Nat
  reaction : Nat
  fid : Option Nat
  detail : Nat
  outcome : Nat
  repeats : Nat
  /-- FCLK cycle of the record, which no word shows: faults of one cycle can fall together (R385). -/
  cyc : Nat
deriving DecidableEq, Repr

/-- An accepted injection waiting for its tick (R383). -/
structure Injection where
  packet : Nat
  unit : Nat
  code : Nat
  cls : Nat
  due : Nat
deriving DecidableEq, Repr

/-- The fault collector (R377–R389); its words are the FC registers. -/
structure FcSt where
  /-- The 16 slots; a slot never written has no entry. -/
  hist : Tbl Hist
  injections : List Injection
  /-- Ground Floor mode: entry carried out. -/
  groundFloor : Bool
  /-- The Ground Floor service is running (Table 17-8). -/
  gfService : Bool
  /-- Neither pair passed: packet fetch and MBX[0] end 1 have stopped (R388). -/
  gfDead : Bool
deriving DecidableEq, Repr

/-- Queue Table entry (Table 04-9); FULL, STALLED and INFLIGHT are computed from the packets. -/
structure Queue where
  en : Bool
  ty : Nat
  mem : Bool
  logSize : Nat
  fid : Nat
  dbSlot : Nat
  base : Nat
  head : Nat
  tail : Nat
  phase : Bool
  defaultCq : Nat
  fetchErr : Bool
  irqSrc : Nat
  sessLock : Bool
  sessBind : Nat
  weight : Nat
  dbDrops : Nat
deriving DecidableEq, Repr

/-- Where a fetched packet stands. -/
inductive PState where
  /-- Waits for dispatch (R334). -/
  | fetched
  /-- Runs in a context. -/
  | running (c : Ctx)
  /-- SESS_ENABLE whose consistency check runs (R96). -/
  | checking
  /-- A frame packet handed to the span scheduler. -/
  | frame
  /-- DEC_BURST until its last picture (R67). -/
  | burst (left : Nat)
  /-- DMA_KICK on or behind its channel (R302). -/
  | kick (ch : Nat)
  /-- KEY_ERASE until its last slot is destroyed (R366). -/
  | erasing (slots : List Nat) (total : Nat)
  /-- SESS_DISABLE, ENC_FLUSH or DEC_FLUSH until earlier frames end (R209, R210). -/
  | draining
  /-- FAULT_INJECT until its tick (R383). -/
  | injecting
  /-- FW_RECOVER until the write ends (R360). -/
  | writing
deriving DecidableEq, Repr

/-- A packet fetched and not completed (R64); its id is the order of fetch. -/
structure Packet where
  id : Nat
  q : Nat
  fid : Nat
  words : List Word
  state : PState
  /-- Crossings of its session before its fetch (R209). -/
  mark : Nat
  /-- A reset of its function's scope was sampled: no completion of it is written (R62). -/
  mute : Bool
deriving DecidableEq, Repr

/-- A completion produced and not yet written (R72). -/
structure Completion where
  cq : Nat
  status : Nat
  tag : Nat
  session : Nat
  reason : Nat
  time : Nat
  vals : List Word
  noIrq : Bool
  /-- The FCLK cycle of the crossing that produced it; none for a packet without one (R28). -/
  crossedAt : Option Nat
deriving DecidableEq, Repr

/-- Queues, packets and completions (R64–R90). -/
structure QSt where
  tbl : Tbl Queue
  packets : List Packet
  held : List Completion
  /-- Order number of the next fetch. -/
  nextId : Nat
  /-- QT.STATUS.TIE_NEXT (R88). -/
  tie : Bool
  /-- IC.IST_STATUS.TIE_NEXT (R313). -/
  istTie : Bool
  /-- DMA.CH_STATUS.TIE_NEXT (R301). -/
  chTie : Bool
  /-- The weighted round robin of each port's fetch: the queue that has the turn, batches granted to it in this turn (R76). -/
  fetchTurn : Tbl (Nat × Nat)
  /-- The tie bit of R95, and the last batch that came: its FCLK cycle, its port, the order number of its first packet. -/
  sessTie : Bool
  lastFetch : Option (Nat × Nat × Nat)
  /-- FCLK cycle of the last keystone that wrote the Session Table (R95). -/
  keyAt : Option Nat
deriving DecidableEq, Repr

/-- A step descriptor of the step table (Table 06-6). -/
structure StepDesc where
  dispW : Nat
  dispH : Nat
  target : Nat
  peak : Nat
  bufBits : Nat
  qpMin : Nat
  qpMax : Nat
  qpInit : Nat
deriving DecidableEq, Repr

/-- A picture without lines. -/
def Samples.none : Samples := { y := [], cb := [], cr := [] }

/-- A storage unit in the Gallery (R195): the stripes written, and its planes, as residuals of the median edge rule or raw. -/
structure StoredUnit where
  stripes : Nat
  raw : Bool
  planes : List (List (List Int))
deriving DecidableEq, Repr

/-- A picture in the visible set of a step (R202, R207). -/
structure Slot where
  slot : Nat
  /-- Frame number, or decode number for a decode session. -/
  num : Nat
  /-- Output order number (R223). -/
  order : Word
  /-- Concealment flags [31:28]. -/
  flags : Nat
  /-- Number of the ENC_FRAME packet of the session that made it (R157). -/
  encSeq : Nat
  /-- The storage units in raster order, `cols` to a line, of the reconstruction; for AV1 decode without its film grain (R195,
  R214). -/
  units : List StoredUnit
  cols : Nat
  /-- The length map: stripes of each unit, padded to whole stripes (R195, R196). -/
  lengths : List Nat
  /-- The quarter-scale copy beside step 0 of an encode session (R155, R196). -/
  quarter : List (List Nat)
deriving DecidableEq, Repr

/-- An aligned hint of an 8 × 8 block of step 0 (R136). -/
structure Hint where
  mv : Option (Int × Int)
  overlay : Bool
  importance : Nat
  depth : Nat
deriving DecidableEq, Repr

/-- What a row starts from (Table 08-2): bottom lines, motion and mode row, coder state, synchronisation set. -/
structure RowStart where
  bottom : Samples
  motion : List Block
  coder : List Byte
  sync : List Byte
deriving DecidableEq, Repr

/-- A step's first row, or the first of a tile row or slice: nothing from above (Table 08-2). -/
def RowStart.fresh : RowStart := { bottom := Samples.none, motion := [], coder := [], sync := [] }

/-- Rate-control memory of one step between crossings beyond the snapshot words (R182, Table 08-5). -/
structure StepMem where
  /-- RC_DEBT, RC_FULLNESS and NEXT_QP as the last crossing left them. -/
  debt : Int
  full : Nat
  qp : Nat
  /-- Rate fields of the last frame granted (R190). -/
  rates : Option StepDesc
  /-- Kept bits per decision row of the last full-crossed frame. -/
  rowBits : List Nat
  /-- That frame was an inter frame that did not close (Table 08-5). -/
  rowBitsOk : Bool
deriving DecidableEq, Repr

/-- A frame of a pyramid in coding order (R145): the number of its ENC_FRAME, its layer, the top layer of its pyramid, and the
ENC_FRAME numbers of the pictures it predicts from. -/
structure PlanFrame where
  seq : Nat
  layer : Nat
  top : Nat
  refs : List Nat
deriving DecidableEq, Repr

/-- What a session shows of the state before its crossings of FCLK cycle `cyc` (R25, R202): snapshot and statistics records and
visible sets. -/
structure Bank where
  cyc : Nat
  snap : Tbl (List Word)
  stat : Tbl (List Word)
  vis : Tbl (List Slot)
deriving DecidableEq, Repr

/-- A session: Session Table entry, step table, and everything kept with it (R93–R105). -/
structure Session where
  en : Bool
  /-- Claimed by SESS_CONFIG: configured (R94). -/
  claimed : Bool
  owner : Nat
  /-- Words 0–31 as configured, EN and OWNER_FID bits of word 0 held 0. -/
  cfg : List Word
  expTicks : Nat
  spanTicks : Nat
  demand : Nat
  overcommitted : Bool
  /-- Home group: log2 of the gang size and index in units of it; none when not admitted. -/
  home : Option (Nat × Nat)
  lastReason : Nat
  /-- The step table; empty when STAIR_SET never came (R141). -/
  stair : List StepDesc
  /-- An accepted SESS_ENABLE since SESS_CONFIG (Table 02-5). -/
  everEnabled : Bool
  /-- SESS_ENABLE waits for its check (R96): packet id. -/
  checkBy : Option Nat
  snap : Tbl (List Word)
  stat : Tbl (List Word)
  /-- The session as it was before the crossings of one FCLK cycle (R25, R202). -/
  before : Option Bank
  vis : Tbl (List Slot)
  stepMem : Tbl StepMem
  /-- Reserved bytes: Gallery, copy sets, flights (R201). -/
  gallery : Nat
  copies : Nat
  flights : Nat
  /-- Extra Gallery bytes of running bursts (R208). -/
  burstExtra : Nat
  /-- Vestibule and Mezzanine pair (R122). -/
  vb : Option Nat
  /-- HDR metadata block copied at the check (R167). -/
  hdr : List Word
  /-- HINT_ATTACH waiting for the next ENC_FRAME: handle, offset, records (R135). -/
  hint : Option (Word × Word × Nat)
  lastFinish : Nat
  /-- Number after the last one held by a frame that crossed in full (R109). -/
  nextNum : Nat
  /-- Crossings of the session's frames, never reset: what R209 counts. -/
  crossings : Nat
  /-- ENC_FRAME packets fetched (R157). -/
  encSeq : Nat
  /-- Frames of the running pyramid that are still to be granted, in coding order, and the ENC_FRAME number of the last anchor
  granted (R145). -/
  plan : List PlanFrame
  anchor : Option Nat
  /-- Frames crossed since the last intra frame (R146). -/
  sinceIntra : Nat
  /-- NEXT_INTRA of an ENC_FLUSH, or an intra frame forced by R212 or R249. -/
  nextIntra : Bool
  /-- A full crossing happened since SESS_ENABLE. -/
  crossedFull : Bool
  /-- Analysis copies of the session's newest 64 conditioned frames, by the number of their ENC_FRAME (R192). -/
  analyses : Tbl (List (List Nat))
  /-- The steps as the last accepted SESS_ENABLE found them: their QP_INIT and rate fields (R182, R190). -/
  enabledSteps : List StepDesc
  /-- Frames whose analysis completed: number of the ENC_FRAME, CF and IF (R192), the newest 64. -/
  costs : List (Nat × Nat × Nat)
  /-- Decode: epoch, the ORDER after the last one reported, pictures decoded, recovery target (R223, R239). -/
  epoch : Nat
  order : Nat
  decoded : Nat
  recovery : List Nat
  seqSeen : Bool
  /-- Parameter sets, APSs and sequence headers by kind and id: valid or marked invalid (R219, R235). -/
  sets : Tbl Bool
  /-- SESS_DISABLE without DRAIN is under way, with its aborted and drained counts. -/
  aborts : Nat
  drains : Nat
deriving DecidableEq, Repr

/-- Run state of one step of a granted encode frame (Table 08-3). -/
structure StepRun where
  rates : StepDesc
  rcN : Nat
  rcNp : Nat
  repay : Int
  bf : Int
  ravg : Nat
  h : Nat
  w : List Nat
  /-- Row units and luma samples of each decision row. -/
  units : List Nat
  samples : List Nat
  /-- Q and O at the start of the frame: where a replay starts again (R178). -/
  q0 : Nat
  o0 : Int
  s : Nat
  q : Nat
  o : Int
  closed : Option Nat
  /-- Next decision row. -/
  row : Nat
  /-- Kept bits per decided row. -/
  kept : List Nat
  /-- Sum of lane QP times samples over kept rows. -/
  qpSum : Nat
  /-- Q at the last decision before closing (R188). -/
  baseQ : Nat
deriving DecidableEq, Repr

/-- Position of one span of the gang: step and decision row it will reach next (R172), and what that row started from
(R173). -/
structure Member where
  step : Nat
  row : Nat
  base : RowStart
deriving DecidableEq, Repr

/-- The end states of a span's lanes at a pier that awaits its decision (R176); no lane B while it idles. -/
structure PierLane where
  member : Nat
  a : Lane
  b : Option Lane
  /-- The writer's bit position in each stream of the step, after lane A's row (Table 08-1). -/
  pos : List Nat
deriving DecidableEq, Repr

/-- The pier stores of a decision row before its decision: step, row, and the spans that have reached it. -/
structure Pier where
  step : Nat
  row : Nat
  lanes : List PierLane
deriving DecidableEq, Repr

/-- A span's part of a decided row, as it was kept (R175, R176). -/
structure KeptRow where
  step : Nat
  row : Nat
  member : Nat
  /-- The lane's row QP. -/
  qp : Nat
  /-- Coded in closing mode. -/
  closed : Bool
  lane : Lane
  /-- The writer's bit position in each stream of the step at the pier (Table 08-1). -/
  pos : List Nat
deriving DecidableEq, Repr

/-- Where a frame stands between its packet and its crossing. -/
inductive FStage where
  /-- Held for lookahead or reordering, or waiting in the scheduler (R98, R115). -/
  | waiting
  /-- Holds its gang. -/
  | granted
  /-- Past its last pier, in its tail (R151). -/
  | tail
  /-- Waits for a withdrawn span's self-test to replay (R374). -/
  | replayWait
  /-- Waits for the tail frame's replay on the same gang (R375). -/
  | replayBehind
deriving DecidableEq, Repr

/-- A frame or picture from its packet's keystone to its crossing. -/
structure Frame where
  /-- Packet's fetch number × 4,096 + burst unit. -/
  id : Nat
  sess : Nat
  decode : Bool
  stage : FStage
  deadline : Nat
  urgent : Bool
  placed : Bool
  protectedHint : Bool
  start : Nat
  finish : Nat
  starve : Nat
  entered : Nat
  /-- End of the slot window that its grant claimed (R113). -/
  slotEnd : Option Nat
  pts : Nat
  force : Bool
  sceneCut : Bool
  encSeq : Nat
  hint : Option (Word × Word × Nat)
  hintsOk : Nat
  hintsBad : Nat
  bufs : List Nat
  input : Word
  inputOff : Word
  pitch : Nat
  /-- Rate fields of each step as of the frame's fetch (R140). -/
  rates : List StepDesc
  num : Nat
  intra : Bool
  intraCause : Nat
  /-- Layer in its pyramid, and the pyramid's top layer (R145). -/
  layer : Nat
  top : Nat
  /-- Shadow slot of each step and reference list of each step (R202). -/
  shadow : List Nat
  refs : List (List Slot)
  run : List StepRun
  members : List Member
  piers : List Pier
  /-- Rows decided so far (R175). -/
  keptRows : List KeptRow
  /-- The data extents that each stream of each step has taken in its flow's flight (R244, R245). -/
  chains : List (List (List Nat))
  /-- The record entry that each flushed step has taken (R244), and the bit positions that the writer could not go on to for want of
  space, by step (R248). -/
  entries : Tbl Nat
  stalled : Tbl (List Nat)
  /-- FCLK cycle in which each span last reached the last pier of its part of step 0 (R154). -/
  arrivals : Tbl Nat
  /-- Its grant spent the session's NEXT_INTRA. -/
  tookNext : Bool
  /-- Home group at the grant. -/
  group : Nat × Nat
  condRows : Nat
  vbCtx : Bool
  conditioned : Bool
  /-- The copy set: the conditioned lines of each step, and those of the analysis copy (R121–R123). -/
  copies : List Samples
  analysis : List (List Nat)
  /-- Aligned hints of step 0's 8 × 8 blocks in raster order, empty without hints (R136). -/
  aligned : List Hint
  rowCosts : List Nat
  cost : Option (Nat × Nat)
  firstTick : Nat
  lastPier : Nat
  /-- Status with which the frame ends at its next pier (R179). -/
  abortAt : Option Nat
  /-- Decode: burst unit index and whether it is the last; the gang member's logical index is `peer`. -/
  burst : Option (Nat × Bool)
  unit : Nat
  keySlot : Option Nat
  outDesc : List Word
  outRef : Word × Word
  peer : Option Nat
  /-- Bytes of the unit; 0 for a burst unit that holds no picture. -/
  length : Nat
  rowsDone : Nat
  /-- Raster indices of the discarded units (R236). -/
  concealed : List Nat
  flags : Nat
  /-- Bytes up to the second picture or the end of the unit, and the parameter sets and headers before it (R219). -/
  consumed : Nat
  sets : List (Nat × Bool)
  /-- The pier of the last row end: the parser's, the arithmetic decoder's and the contexts' state, and the bottom lines
  (R217). -/
  parser : List Byte
  bottom : Samples
  /-- The unit's protection record (R225): handle and offset. -/
  record : Option (Word × Word)
  /-- Source bytes in the Viaduct's staging buffer, encrypted where the unit is protected (R224). -/
  staged : List Byte
  /-- The mezzanine's analysis was discarded (0x0401). -/
  noAnalysis : Bool
deriving DecidableEq, Repr

/-- A home group's scheduler (R115). -/
structure Group where
  vtime : Nat
  holder : Option Nat
  /-- Tick at which the group last held no grant. -/
  idleSince : Nat
deriving DecidableEq, Repr

/-- A span's self-test (R373): its logical index when it runs in place, whether the span was a spare, the history
SEQ it reports to. -/
structure SpanTest where
  kind : SpanKind
  phys : Nat
  inPlace : Option Nat
  spare : Bool
  seq : Nat
deriving DecidableEq, Repr

/-- A claim that a slot of the active bank has made (R113): the slot, the frame, the slot's words at the claim, and the end
of the window that made it. -/
structure SlotClaim where
  slot : Nat
  frame : Nat
  words : List Word
  stop : Nat
deriving DecidableEq, Repr

/-- Spans, maps, slots and schedulers (R99–R119, R373). -/
structure SpanSt where
  /-- Logical to physical index, none while an index holds no span. -/
  mapEnc : Tbl Nat
  mapDec : Tbl Nat
  /-- Physical spans in self-test. -/
  testing : List SpanTest
  /-- Retired physical spans. -/
  retired : List (SpanKind × Nat)
  /-- Logical indices waiting for a spare to take them. -/
  waiting : List (SpanKind × Nat)
  groups : Tbl Group
  /-- Slots: bank × 64 + slot to its three words. -/
  slots : Tbl (List Word)
  /-- Claims that wait for their group, and rewritten words to apply next. -/
  claims : List SlotClaim
  /-- Sessions that a slot's window has granted, with the window's end (R113). -/
  served : List (Nat × Nat)
  deferred : Tbl (List Word)
  swapAt : Option Nat
  /-- Round grid in force, and the one to follow: its BASE, its TICKS and the boundary at which it takes effect (R112). -/
  base : Nat
  ticks : Nat
  next : Option (Nat × Nat × Nat)
  lastBoundary : Nat
  /-- Frames by packet id. -/
  frames : List Frame
  /-- Vestibule: rotor of each VB; Mezzanines withdrawn. -/
  vbTurn : Tbl Nat
  mzOut : List Nat
  /-- Units awake since: gating countdown, by unit key. -/
  idle : Tbl Nat
  gatedVb : List Nat
  gatedMz : List Nat
deriving DecidableEq, Repr

/-- Tools of Table 07-2 that a bitstream signals as enabled or not: those that depend on a codec or a field, and those that are not
used. -/
inductive Tool where
  | palette
  | blockCopy
  | affine
  | warpedMotion
  | mts
  | lfnst
  | transformSkip
  | crossComponentModel
  | chromaFromLuma
  | compound
  /-- Not used: AV1. -/
  | obmc
  | wedge
  | interIntra
  | globalMotion
  | superres
  | filmGrain
  | superblock128
  | highPrecisionVectors
  /-- Not used: HEVC, VVC, AVC. -/
  | asymmetricPartitions
  | weightedPrediction
  | crossComponentPrediction
  | referenceResampling
  | lmcs
  | mip
  | isp
  | mrl
  | gpm
  | bdof
  | dmvr
  | sbTmvp
  | ccAlf
  | amvr
  | dependentQuantisation
  | interlace
  | mbaff
  | cavlc
deriving DecidableEq, Repr

/-- The tool is marked "not used" in Table 07-2, or switched off there for every session. -/
def Tool.unused : Tool → Bool
  | .palette | .blockCopy | .affine | .warpedMotion | .mts | .lfnst | .transformSkip | .crossComponentModel | .chromaFromLuma
  | .compound => false
  | _ => true

/-- What a frame's bitstream signals beside its samples (R109, R128, R129, R138, R144, R146, R152, R163, Table 07-7). -/
structure Signals where
  /-- A KEY_FRAME with show_frame = 1, an IDR_W_RADL or an IDR picture. -/
  key : Bool
  matrix : Nat
  transfer : Nat
  full : Bool
  /-- 4:2:0 chroma with the even luma columns, midway between lines. -/
  sitedLeft : Bool
  dispW : Nat
  dispH : Nat
  /-- FPS_NUM and FPS_DEN. -/
  timing : Option (Nat × Nat)
  /-- Tile columns, tile rows, and slices of the picture. -/
  tileCols : Nat
  tileRows : Nat
  slices : Nat
  wpp : Bool
  /-- In-loop filters work across tile and slice edges. -/
  across : Bool
  /-- gaps_in_frame_num_value_allowed_flag. -/
  gaps : Bool
  /-- allow_intrabc of an AV1 frame. -/
  intrabc : Bool
  deblocking : Bool
  sao : Bool
  cdef : Bool
  restoration : Bool
  alf : Bool
  betaOffset : Int
  tcOffset : Int
  cbOffset : Int
  crOffset : Int
  tools : List Tool
deriving DecidableEq, Repr

/-- A committed frame of a flow waiting to be packetised (R246). -/
structure OutFrame where
  num : Nat
  pts : Nat
  units : List (List Byte)
  /-- Packets of the frame in order: FRAG and payload (R250). -/
  packets : List (Nat × List Byte)
  /-- Index of the next packet. -/
  next : Nat
  total : Nat
  /-- Byte length of each stream (R244). -/
  streams : List Nat
  /-- The data extents of each stream's chain, and the frame's entry of the record ring (R243, R244). -/
  chains : List (List Nat)
  entry : Nat
  /-- FCLK cycle of its crossing: a decision of that cycle does not see it (R246). -/
  since : Nat
  signals : Signals
  /-- Byte offsets of the frame that a poisoned word holds (R249). -/
  poison : List Nat
deriving DecidableEq, Repr

/-- A packet at the head of a flow, formed and waiting for its grant (R258). -/
structure HeadPacket where
  frag : Nat
  payload : List Byte
  index : Nat
  count : Nat
  first : Bool
  last : Bool
  frameNum : Nat
  pts : Nat
  finish : Nat
deriving DecidableEq, Repr

/-- A packet that a packetiser writes (R256, R259): its body has gone out and its header has not. -/
structure Sending where
  packet : HeadPacket
  /-- The flow's image, its session's function, the slot's address and the phase at the grant. -/
  image : List Word
  fid : Nat
  slot : Nat
  phase : Bool
  seq : Nat
  /-- FCLK cycle in which the packet ends. -/
  ends : Nat
deriving DecidableEq, Repr

/-- A flow of the Tollgate (R241–R262). -/
structure Flow where
  /-- Image words of FLOW_SET, empty when none since the id was claimed. -/
  image : List Word
  /-- 0 IDLE, 1 RUN, 2 HALTED. -/
  state : Nat
  haltCause : Nat
  prod : Nat
  phase : Bool
  cons : Nat
  sent : Nat
  bytesSent : Nat
  lost : Nat
  overflows : Nat
  waits : Nat
  discarded : Nat
  tokens : Nat
  seq : Nat
  lastFrame : Nat
  frames : List OutFrame
  /-- The next entry of the record ring (R243, R244). -/
  nextEntry : Nat
  head : Option HeadPacket
  sending : Option Sending
  lastFinish : Nat
  /-- The ring's buffer while the flow pins it (R294). -/
  ringPin : Option Nat
  /-- Tick of the last consumer index read, and the retries spent on it (R260). -/
  lastRead : Option Nat
  retried : Nat
deriving DecidableEq, Repr

/-- A buffer's entry in the Buffer Table (Table 13-5). -/
structure Buf where
  /-- 0 FREE, 1 ALLOCATED, 2 DRAINING, 3 RETIRED. -/
  state : Nat
  owners : List Nat
  gen : Nat
  pins : Nat
deriving DecidableEq, Repr

/-- Free list of a pool: indices from `fresh` up have never been returned, then the returned ones. -/
structure Pool where
  fresh : Nat
  returned : List Nat
  rrNext : Bool
deriving DecidableEq, Repr

/-- The Buffer Pool Manager (R285–R297). -/
structure BpmSt where
  /-- Buffers exist: the device-level check accepted. -/
  live : Bool
  bufs : Tbl Buf
  pools : Tbl Pool
deriving DecidableEq, Repr

/-- A transfer in progress on a channel (R298, R303). -/
structure Xfer where
  barrier : Bool
  irq : Bool
  srcBus : Bool
  dstBus : Bool
  src : Nat
  dst : Nat
  len : Nat
  /-- Bytes whose segments were granted, and bytes written. -/
  issued : Nat
  written : Nat
  /-- Buffers of its ranges (R294). -/
  pins : List Nat
deriving DecidableEq, Repr

/-- A Viaduct channel (Table 13-6). -/
structure Channel where
  assigned : Bool
  owner : Nat
  prio : Nat
  state : Nat
  haltCause : Nat
  haltReason : Nat
  descIndex : Nat
  doneTotal : Nat
  retriesUsed : Nat
  /-- Kicks by packet id, the running one first. -/
  kicks : List Nat
  /-- Device address of the next descriptor, its buffer, how many of P3 are left, links met in a row (R306). -/
  desc : Nat
  descBuf : Nat
  left : Nat
  links : Nat
  bytes : Nat
  xfer : Option Xfer
  /-- Trigger awaited by the loaded descriptor: kind and id and count (R304). -/
  trig : Option (Nat × Nat × Nat)
  stopping : Bool
  /-- Buffers of descriptors that links named (R294). -/
  pins : List Nat
  starve : Nat
  /-- Retries spent on the segment in error. -/
  retried : Nat
deriving DecidableEq, Repr

/-- Addresses from `start` to `stop` that hold undefined contents: the output of a picture's frame (R33, R222). -/
structure Undef where
  start : Nat
  stop : Nat
  /-- Index of the free value. -/
  idx : Nat
  frame : Nat
  /-- The picture has not completed: a write from elsewhere defines nothing (R33). -/
  live : Bool
deriving DecidableEq, Repr

/-- Device memory (R264): listed bytes, the number of events that left it undefined, poisoned lines, undefined ranges. -/
structure Mem where
  cells : List Host.Cell
  /-- 0: unlisted bytes are 0, as start-up stage 4 or a reset left them; n > 0: undefined since event n. -/
  epoch : Nat
  /-- How many events have left the contents undefined. -/
  made : Nat
  /-- Line numbers (address / 64) with the poison code (R279). -/
  poisoned : List Nat
  /-- Outputs of pictures that have not completed, and of those that ended without one. -/
  undef : List Undef
deriving DecidableEq, Repr

/-- An open combining buffer (R268): its stripe by device address / 1,024, and a mask of the bytes written. -/
structure Combine where
  stack : Nat
  stripe : Nat
  requester : Nat
  opened : Nat
  mask : Nat
deriving DecidableEq, Repr

/-- Memory controllers (R263–R284); SG_STATUS and the rest are registers. -/
structure McSt where
  /-- Starve counts: group × 64 + requester. -/
  starve : Tbl Nat
  /-- Freezes of a pseudo-channel since POR_N. -/
  freezes : Tbl Nat
  /-- Uncorrectable lines of a second member: group × 8 + member. -/
  second : Tbl Nat
  /-- History SEQ of the running freeze of a group (R376), and the device address of its line. -/
  freezeSeq : Tbl Nat
  freezeAt : Tbl Nat
  /-- Refreshes of a bank, pseudo-channel × 32 + bank, since its stack's count of intervals began. -/
  paid : Tbl Nat
  combine : List Combine
  /-- FCLK cycle in which each group's current grant ends (R282). -/
  grantEnd : Tbl Nat
  /-- By stack: refresh intervals counted before the present grid, and the raw tick at which that began: the last
  self-refresh exit or change of interval. -/
  refreshBase : Tbl (Nat × Nat)
  /-- Groups whose scrub has read the stack's SCRUB_POS stripe, and passes ended by stack (R270). -/
  scrubbed : List Nat
  passes : Tbl Nat
  /-- Retired Page List: first page and run length (R281). -/
  rpl : List (Nat × Nat)
deriving DecidableEq, Repr

/-- A journal entry (R338): a register write or a buffer write. -/
structure JEntry where
  isBuf : Bool
  addr : Nat
  data : Word
deriving DecidableEq, Repr

/-- A context of a control-processor pair (R333). -/
structure Context where
  packet : Option Nat
  pc : Nat
  g : Tbl Word
  a : Tbl Word
  z : Bool
  n : Bool
  cf : Bool
  stack : List Nat
  journal : List JEntry
  scratch : Tbl Word
  vals : Tbl Word
  window : Option (Nat × Nat)
  watchdog : Nat
  lastKey : Nat
  /-- Suspended in WAIT with this condition mask. -/
  waiting : Option (BitVec 4)
  loggia : Bool
  /-- Buffers that the packet's windows pin (R294). -/
  pins : List Nat
  /-- Device-global configuration as read at the start of the packet, by offset (R39). -/
  globals : Tbl Word
  /-- FCLK cycle up to which `watchdog` counts: its last microword's, its start's or its resumption's (R343). -/
  ranAt : Nat
deriving DecidableEq, Repr

/-- Which context of a pair executes (R333, R341): the one that does, the one that stopped last and when, and whether context 7 has
yet to look at what waits since then. -/
structure Turn where
  cur : Option Nat
  last : Nat
  since : Nat
  due : Bool
deriving DecidableEq, Repr

/-- The last keystone of a pair's context that wrote registers (R339): its FCLK cycle, its packet, the registers with their
data. -/
structure KeyWrites where
  cycle : Nat
  packet : Nat
  writes : List (Nat × Word)
deriving DecidableEq, Repr

/-- The Concourse (R332–R349). -/
structure ConcSt where
  /-- Contexts: pair × 8 + slot. -/
  ctxs : Tbl Context
  /-- By pair. -/
  turns : Tbl Turn
  keyed : Tbl KeyWrites
  /-- The control store as the boot ROM filled it (Table 15-5): microwords from 0x0000, from 0xA000 and from 0xE000; what a list does
  not reach is NOP. -/
  vendor : List Word
  patch : List Word
  store : List Word
  /-- Attribute bytes of opcodes 0xE0–0xEF. -/
  attr : List Byte
  /-- Tick at which each pair's self-test began, and the history SEQ it reports to. -/
  testSeq : Tbl Nat
deriving DecidableEq, Repr

/-- A key slot (R362). -/
structure KeySlot where
  /-- 0 EMPTY, 1 LOADED, 2 ERASING. -/
  state : Nat
  usage : Nat
  owner : Nat
  holds : Nat
  keyId : Word
  seq : Nat
  key : List Byte
deriving DecidableEq, Repr

/-- An active record of the boot flash (R355). -/
structure ActiveRec where
  magic : Word
  seqNo : Nat
  bankB : Bool
  check : List Byte
deriving DecidableEq, Repr

/-- A firmware write in progress (R360). -/
structure FwWriteSt where
  /-- Packet, or none for the mailbox or PLDM path. -/
  packet : Option Nat
  /-- Mailbox request: its TAG and the PF. -/
  mbx : Option (Nat × Nat)
  image : List Byte
  fid : Nat
  /-- The buffer of the image, which it pins (R294). -/
  pins : List Nat
deriving DecidableEq, Repr

/-- The security block, the fuses and the boot flash (R350–R369). -/
structure SecSt where
  slots : Tbl KeySlot
  /-- Fuse array (R350): for logical bits 32i to 32i + 31, the first and the second fuse of each. The secrets are opaque. -/
  fuses : Tbl (Word × Word)
  /-- The FUSE shadow: the logical words as sensed, without the secrets. -/
  shadow : Tbl Word
  /-- Contents of the parts of the boot flash by flash address (Table 16-3). -/
  flash : Tbl (List Byte)
  /-- Copies 0 and 1 of the active record, at 0x000_0000 and 0x001_0000. -/
  rec0 : Option ActiveRec
  rec1 : Option ActiveRec
  /-- Digest inputs of the running code: firmware and patch image bytes. -/
  running : List Byte
  write : Option FwWriteSt
  /-- Firmware writes waiting in order of arrival. -/
  queue : List FwWriteSt
deriving DecidableEq, Repr

/-- Clocks, power manager and start-up (R392–R415). -/
structure ClkSt where
  /-- Cap-loop counter `up` (R403). -/
  up : Nat
  /-- Loop ticks in a row with a sample below 100 °C (R405). -/
  cool : Nat
  lastTj : Int
  /-- Tick of the last thermal raise. -/
  lastRaise : Option Nat
  /-- The previous sample was at 120 °C or above (R406). -/
  hot120 : Bool
  /-- The last multiple of 100,000 ticks at which the cap loop ran (R403), and the ticks of the last thermal sample
  (R405) and PMBus poll (R407). -/
  loopK : Nat
  lastSample : Option Nat
  lastPoll : Option Nat
  /-- Consecutive unacknowledged polls by regulator. -/
  noAck : Tbl Nat
  /-- Step CCLK runs at (0–2); PWR_STATUS.STEP shows it. -/
  cclk : Nat
  /-- Core voltage commanded, in millivolts. -/
  vcore : Nat
  /-- The faster step that the core regulator was set for, and the tick at which it was (R398). -/
  volts : Option (Nat × Nat)
  /-- The device-level check runs (R413). -/
  checking : Bool
  /-- Start tick of the stage in progress and whether this start is a DEV.CTRL.RESET restart. -/
  stageAt : Nat
  restart : Bool
  testMode : Bool
  /-- Tick at which IDLE began with every function out of D0. -/
  quietSince : Nat
  /-- POR_N is deasserted. -/
  alive : Bool
  fuseBlowDue : Bool
  inDeep : Bool
  /-- Ticks spent at each CCLK step and in DEEP_IDLE, and energy in units of 1/8,000 J (Table 19-5). -/
  stepTicks : Tbl Nat
  deepTicks : Nat
  energy : Nat
deriving DecidableEq, Repr

/-- Pins and the SMBus target (R425–R437). -/
structure BoardSt where
  thermTrip : Bool
  smbAddr : BitVec 2
  smbAlert : Bool
deriving DecidableEq, Repr

/-- The machine. -/
structure State where
  /-- Commands waiting, first in first out. -/
  pending : List Instr
  /-- What the last command sent out. -/
  out : List Emit
  /-- The model's own counter for values the spec leaves open (log 3). -/
  free : Nat
  /-- Plain registers by offset; an offset without an entry holds `Reg.resetValue`. -/
  regs : Tbl Word
  /-- Bits that the device set in FCLK cycle `freshAt`, by the key of their register: a clear in that cycle loses (R5). -/
  fresh : Tbl Word
  freshAt : Nat
  time : TimeSt
  agents : Tbl AgentSt
  fns : Tbl FnSt
  ports : Tbl PortSt
  /-- Semaphore holders: owner code, 0 when free. -/
  sem : Tbl Nat
  mbx : Tbl Mbx
  ic : IcSt
  tmr : Tbl TmrSt
  fc : FcSt
  qs : QSt
  sess : Tbl Session
  span : SpanSt
  flows : Tbl Flow
  /-- Virtual time of the three Tollgate schedulers. -/
  tgTime : Tbl Nat
  /-- FCLK cycle in which each packetiser's current packet ends (R256). -/
  tgFree : Tbl Nat
  /-- Raw tick of the last refill of the token buckets (R257). -/
  tgRefill : Option Nat
  bpm : BpmSt
  dma : Tbl Channel
  mem : Mem
  mc : McSt
  conc : ConcSt
  sec : SecSt
  clk : ClkSt
  board : BoardSt
deriving DecidableEq, Repr

/-- A function's own register state at reset (R420). -/
def AgentSt.reset : AgentSt :=
  { latch := [], stage := [], win := [], status := [], apwinLo := 0, apwinHi := 0, sessHalf := false,
    hashSel := 0 }

/-- A function's PCIe state at reset: D0, PME off, every vector masked (log 8). -/
def FnSt.reset : FnSt :=
  { d3hot := false, pmeEn := false, pmeStatus := false, funcMask := false, classCode := 0x040000, unmasked := [], pba := [] }

/-- A port at POR_N: held in reset. -/
def PortSt.reset : PortSt :=
  { perst := true, releasedAt := 0, crs := true, numVfs := 0, ptmEn := false, d3cold := false,
    spdmSecured := false, ideKeys := [], insecure := [] }

/-- A mailbox end that is free. -/
def MbxEnd.reset : MbxEnd :=
  { owner := 0, waitEmpty := false, dataIe := false, aborted := false, crossed := false, overflow := false,
    underflow := false, abortCause := 0, discarded := 0, queue := [] }

/-- A channel at reset: end 1 of MBX[0] is held by the Concourse under code 0x81 (R55). -/
def Mbx.reset (n : Nat) : Mbx :=
  { e0 := MbxEnd.reset, e1 := if n = 0 then { MbxEnd.reset with owner := 0x81 } else MbxEnd.reset,
    window := none, fired := false, attachFail := [] }

/-- A target field at reset. -/
def IstTarget.reset : IstTarget := { valid := false, isCp := false, fid := 0, vector := 0 }

/-- An Interrupt Source Table entry at reset: MASK is 1 (Table 14-2). -/
def IstEntry.reset : IstEntry :=
  { en := false, mask := true, pend := false, active := false, rrNext := 0, owner := 0,
    targets := [IstTarget.reset, IstTarget.reset, IstTarget.reset, IstTarget.reset], latched := none,
    reRaised := false, claimedBy := none }

/-- A timer at reset. -/
def TmrSt.reset : TmrSt := { oldCmp := none, idleAt := none, doneAt := none }

/-- A Queue Table entry at reset: unbound, WEIGHT 1 (Table 04-9). -/
def Queue.reset : Queue :=
  { en := false, ty := 0, mem := false, logSize := 0, fid := 0, dbSlot := 0, base := 0, head := 0, tail := 0,
    phase := false, defaultCq := 0, fetchErr := false, irqSrc := 0, sessLock := false, sessBind := 0,
    weight := 1, dbDrops := 0 }

/-- An unconfigured session. -/
def Session.reset : Session :=
  { en := false, claimed := false, owner := 0, cfg := List.replicate 32 0, expTicks := 0, spanTicks := 0,
    demand := 0, overcommitted := false, home := none, lastReason := 0, stair := [], everEnabled := false,
    checkBy := none, snap := [], stat := [], before := none, vis := [], stepMem := [], gallery := 0, copies := 0, flights := 0,
    burstExtra := 0, vb := none, hdr := [], hint := none, lastFinish := 0, nextNum := 0, crossings := 0, encSeq := 0, plan := [], anchor := none, sinceIntra := 0, nextIntra := false, crossedFull := false, analyses := [], enabledSteps := [], costs := [], epoch := 0, order := 0, decoded := 0, recovery := [], seqSeen := false, sets := [], aborts := 0,
    drains := 0 }

/-- A group with no grant. -/
def Group.reset : Group := { vtime := 0, holder := none, idleSince := 0 }

/-- A flow with no image. -/
def Flow.reset : Flow :=
  { image := [], state := 0, haltCause := 0, prod := 0, phase := false, cons := 0, sent := 0, bytesSent := 0,
    lost := 0, overflows := 0, waits := 0, discarded := 0, tokens := 0, seq := 0, lastFrame := 0, frames := [], nextEntry := 0,
    head := none, sending := none, lastFinish := 0, ringPin := none, lastRead := none, retried := 0 }

/-- A buffer that was never allocated: generation 1 (R287). -/
def Buf.reset : Buf := { state := 0, owners := [], gen := 1, pins := 0 }

/-- A pool's free list when the device-level check accepts. -/
def Pool.reset : Pool := { fresh := 0, returned := [], rrNext := false }

/-- A channel at reset: unassigned and IDLE. -/
def Channel.reset : Channel :=
  { assigned := false, owner := 0, prio := 0, state := 0, haltCause := 0, haltReason := 0, descIndex := 0,
    doneTotal := 0, retriesUsed := 0, kicks := [], desc := 0, descBuf := 0, left := 0, links := 0, bytes := 0,
    xfer := none, trig := none, stopping := false, pins := [], starve := 0, retried := 0 }

/-- A context that runs nothing. -/
def Context.reset : Context :=
  { packet := none, pc := 0, g := [], a := [], z := false, n := false, cf := false, stack := [], journal := [],
    scratch := [], vals := [], window := none, watchdog := 0, lastKey := 0, waiting := none, loggia := false, pins := [],
    globals := [], ranAt := 0 }

/-- An empty key slot. -/
def KeySlot.reset : KeySlot :=
  { state := 0, usage := 0, owner := 0, holds := 0, keyId := 0, seq := 0, key := [] }

/-- The fuse words of a production part: DEBUG_LOCK blown, both kinds' spares 16 and 17, part 0x0128
stepping 0x00A1; every other field unblown (log 5). -/
def fusesReset : Tbl (Word × Word) :=
  [(50, 0x80000000, 0x80000000), (52, 0x8C230, 0x8C230), (53, 0x012800A1, 0x012800A1)]

/-- The machine with POR_N asserted (R61, R420): every register at its reset value. -/
def State.reset : State :=
  { pending := [], out := [], free := 0, regs := [], fresh := [], freshAt := 0,
    time := { now := 0, cycle := 0, runs := false, err := 0, phase := 0, raw := 0, ptmFails := 0, lastSync := none },
    agents := [], fns := [], ports := [], sem := [], mbx := [],
    ic := { ist := [], reqs := [], reqAt := [], wins := [], sentAt := 0, sent := [], gated := false, caught := [], latches := [], returned := [] }, tmr := [],
    fc := { hist := [], injections := [], groundFloor := false, gfService := false, gfDead := false },
    qs := { tbl := [], packets := [], held := [], nextId := 0, tie := false, istTie := false, chTie := false, fetchTurn := [],
            sessTie := false, lastFetch := none, keyAt := none },
    sess := [],
    span := { mapEnc := [], mapDec := [], testing := [], retired := [], waiting := [], groups := [], slots := [],
              claims := [], served := [], deferred := [], swapAt := none, base := 0, ticks := 1666667, next := none,
              lastBoundary := 0, frames := [], vbTurn := [], mzOut := [], idle := [], gatedVb := [0, 1, 2, 3],
              gatedMz := [0, 1, 2, 3] },
    flows := [], tgTime := [], tgFree := [], tgRefill := none, bpm := { live := false, bufs := [], pools := [] }, dma := [],
    mem := { cells := [], epoch := 1, made := 1, poisoned := [], undef := [] },
    mc := { starve := [], freezes := [], second := [], freezeSeq := [], freezeAt := [], paid := [], combine := [], grantEnd := [],
            refreshBase := [], scrubbed := [], passes := [], rpl := [] },
    conc := { ctxs := [], turns := [], keyed := [], vendor := [], patch := [], store := [], attr := [], testSeq := [] },
    sec := { slots := [], fuses := fusesReset, shadow := [], flash := [], rec0 := none,
             rec1 := none, running := [], write := none, queue := [] },
    clk := { up := 0, cool := 0, lastTj := 0, lastRaise := none, hot120 := false, loopK := 0,
             lastSample := none, lastPoll := none, noAck := [], cclk := 0,
             vcore := 750, volts := none, checking := false, stageAt := 0, restart := false, testMode := false, quietSince := 0,
             alive := false, fuseBlowDue := false, inDeep := false, stepTicks := [], deepTicks := 0, energy := 0 },
    board := { thermTrip := false, smbAddr := 0, smbAlert := false } }

end Sys2Proof.Machine
end

