-- ==== Sys2Proof/Machine/Ops.lean ====
section
/-! DEFINITION. The shared operations on the state: registers, free values, what is sent out, functions and
their rights, semaphores, interrupt sources, and the record of a fault. Every meaning goes through these. -/

namespace Sys2Proof.Machine

-- Registers -------------------------------------------------------------------------------------------

/-- A plain register (R416): its stored word, or its reset value. -/
def State.reg (s : State) (off : Nat) : Word := s.regs.get off (Reg.resetValue off)

/-- The state with a plain register set. -/
def State.setReg (s : State) (off : Nat) (v : Word) : State := { s with regs := s.regs.put off v }

/-- Field [lo + len − 1 : lo] of a plain register. -/
def State.regF (s : State) (off lo len : Nat) : Nat := fld (s.reg off) lo len

/-- Bit `i` of a plain register. -/
def State.regB (s : State) (off i : Nat) : Bool := bit (s.reg off) i

/-- The state with a field of a plain register set. -/
def State.setRegF (s : State) (off lo len v : Nat) : State := s.setReg off (setFld (s.reg off) lo len v)

/-- The state with a bit of a plain register set. -/
def State.setRegB (s : State) (off i : Nat) (b : Bool) : State := s.setRegF off i 1 (b2n b)

/-- The state with a counter field advanced by 1, wrapping in its width. -/
def State.bump (s : State) (off lo len : Nat) : State := s.setRegF off lo len (s.regF off lo len + 1)

/-- The state with a counter field advanced by `k`, held at its largest value. -/
def State.bumpSat (s : State) (off lo len k : Nat) : State :=
  s.setRegF off lo len (satAdd len (s.regF off lo len) k)

/-- The state with a 64-bit counter pair advanced by `k`. -/
def State.bumpPair (s : State) (lo hi k : Nat) : State :=
  let n := pair64 (s.reg hi) (s.reg lo) + k
  (s.setReg lo (loW n)).setReg hi (hiW n)

/-- The state with one more observation. -/
def State.emit (s : State) (e : Emit) : State := { s with out := s.out ++ [e] }

/-- FCLK cycles since POR_N, by the uncorrected tick count. -/
def State.cyc (s : State) : Nat := s.time.raw * 12 + s.time.cycle

/-- The bits under a key that the device set in this FCLK cycle (R5). -/
def State.freshBits (s : State) (key : Nat) : Word := if s.freshAt = s.cyc then s.fresh.get key 0 else 0

/-- The device has set these bits in this FCLK cycle (R5). -/
def State.mark (s : State) (key : Nat) (bits : Word) : State :=
  let old := if s.freshAt = s.cyc then s.fresh else []
  { s with fresh := old.put key (old.get key 0 ||| bits), freshAt := s.cyc }

/-- The device sets a field of W1C or RC access: a host's clear in the same FCLK cycle leaves it standing (R5). -/
def State.raiseF (s : State) (off lo len v : Nat) : State := (s.setRegF off lo len v).mark off (fmask lo len)

/-- The device sets a bit of W1C access (R5). -/
def State.raiseB (s : State) (off i : Nat) : State := s.raiseF off i 1 1

/-- The device raises a peak of RC access, where the value passes it (R5). -/
def State.raisePeak (s : State) (off lo len v : Nat) : State := if s.regF off lo len < v then s.raiseF off lo len v else s

/-- The key of an agent's own W1C bits of a register (R5). -/
def agentKey (code off : Nat) : Nat := 0x1000000 * code + off

/-- Max payload size and max read request size of a port (Table 03-1). -/
def maxPayload : Nat := 512
def maxReadRequest : Nat := 4096

/-- The port of a function: bit 6 of its FID (R51). -/
def portOf (fid : Nat) : Nat := fid / 64 % 2

/-- TLPs of this use on a port are dropped: an Insecure IDE stream covers it (R369). -/
def State.ideDrops (s : State) (n : Nat) (u : IdeUse) : Bool := (s.ports.get n PortSt.reset).insecure.any fun e => e.2.contains u

/-- Bytes that cross no 4 KiB boundary, written to a bus address: one TLP for each payload of at most 512 bytes. -/
def State.emitChunks (s : State) (fid addr : Nat) (bs : List Byte) : State :=
  (List.range ((bs.length + maxPayload - 1) / maxPayload)).foldl
    (fun st i => st.emit (.busWrite fid (addr + maxPayload * i) ((bs.drop (maxPayload * i)).take maxPayload))) s

/-- A write of bytes to a bus address with a function's requester ID: TLPs of at most 512 bytes of payload, none across a
4 KiB boundary (Table 03-1, R298). -/
def State.emitWrite (s : State) (fid addr : Nat) (bs : List Byte) : State :=
  let b := 4096 - addr % 4096
  if s.ideDrops (portOf fid) .device then s else (s.emitChunks fid addr (bs.take b)).emitChunks fid (addr + b) (bs.drop b)

/-- A read of `n` bytes at a bus address with a function's requester ID, in requests of at most 4 KiB (Table 03-1). -/
def State.emitRead (s : State) (fid addr n : Nat) : State :=
  if s.ideDrops (portOf fid) .device then s else (List.range ((n + maxReadRequest - 1) / maxReadRequest)).foldl
    (fun st i => st.emit (.busRead fid (addr + maxReadRequest * i) (min maxReadRequest (n - maxReadRequest * i)))) s

/-- A zero-length read behind writes to a bus address, which proves their arrival. -/
def State.emitFlush (s : State) (fid addr : Nat) : State :=
  if s.ideDrops (portOf fid) .device then s else s.emit (.flushRead fid addr)

/-- A value the spec leaves open, and the state with the counter advanced. -/
def State.takeFree (s : State) : Word × State := (Config.freeWord s.free, { s with free := s.free + 1 })

/-- The device-time tick (R9, R327). -/
def State.now (s : State) : Nat := s.time.now

-- Functions and control processors ---------------------------------------------------------------------

/-- The function is its port's PF. -/
def isPf (fid : Nat) : Bool := fid % 64 == 0

/-- `b` is `a` itself or, where `a` is a PF, one of its VFs. -/
def mine (a b : Nat) : Bool := a == b || (isPf a && portOf a == portOf b)

end Sys2Proof.Machine

namespace Sys2Proof

/-- The owner code under which an agent acts: FID + 1, or the code of its pair's first processor
(R51, R332). -/
def Agent.code : Agent → Nat
  | .fn f => f.val + 1
  | .cp k => 0x81 + 2 * (k.val / 2)

/-- The FID of a host function. -/
def Agent.fid? : Agent → Option Nat
  | .fn f => some f.val
  | .cp _ => none

/-- The agent is a VF. -/
def Agent.isVf : Agent → Bool
  | .fn f => !Machine.isPf f.val
  | .cp _ => false

/-- The agent is a PF. -/
def Agent.isPf : Agent → Bool
  | .fn f => Machine.isPf f.val
  | .cp _ => false

/-- The agent is a control processor. -/
def Agent.isCp : Agent → Bool
  | .fn _ => false
  | .cp _ => true

end Sys2Proof

namespace Sys2Proof.Machine

/-- What a function has of its own, by owner code. -/
def State.agent (s : State) (code : Nat) : AgentSt := s.agents.get code AgentSt.reset

/-- The state with an agent's own part replaced. -/
def State.setAgent (s : State) (code : Nat) (a : AgentSt) : State := { s with agents := s.agents.put code a }

/-- A function's PCIe part. -/
def State.fn (s : State) (fid : Nat) : FnSt := s.fns.get fid FnSt.reset

/-- The state with a function's PCIe part replaced. -/
def State.setFn (s : State) (fid : Nat) (f : FnSt) : State := { s with fns := s.fns.put fid f }

/-- A port's PCIe part. -/
def State.port (s : State) (n : Nat) : PortSt := s.ports.get n PortSt.reset

/-- The state with a port's PCIe part replaced. -/
def State.setPort (s : State) (n : Nat) (p : PortSt) : State := { s with ports := s.ports.put n p }

/-- DEV.PORT_STATUS[n].IN_RESET. -/
def State.portInReset (s : State) (n : Nat) : Bool := s.regB (Reg.portStatus n) 8

/-- The function exists: a PF, or a VF its port has enabled (R292). -/
def State.fnExists (s : State) (fid : Nat) : Bool := isPf fid || decide (fid % 64 ≤ (s.port (portOf fid)).numVfs)

/-- The function can be reached: it exists and its port is out of reset and of CRS (R411). -/
def State.fnLive (s : State) (fid : Nat) : Bool :=
  s.fnExists fid && !s.portInReset (portOf fid) && !(s.port (portOf fid)).crs && s.clk.alive

/-- A function's access to one of its windows arrives: a function in D3hot may make none (R402, log 8), and an Insecure IDE stream
drops it (R369). -/
def State.liveFor (s : State) (fid : Nat) (u : IdeUse) : Bool :=
  s.fnLive fid && !(s.fn fid).d3hot && !s.ideDrops (portOf fid) u

/-- The agent can make a register access now. -/
def State.live (s : State) : Agent → Bool
  | .fn f => s.liveFor f.val .registers
  | .cp _ => s.clk.alive

/-- DEV.STATUS.READY. -/
def State.ready (s : State) : Bool := s.regB Reg.devStatus 31

/-- DEV.STATUS.ENGINE_ON. -/
def State.engineOn (s : State) : Bool := s.regB Reg.devStatus 30

/-- VF_VIEW of FUSE.LOCKS; 3 acts as 2 (Table 03-5). -/
def State.vfView (s : State) : Nat := min 2 (s.regF Reg.locks 27 2)

/-- Port `n` holds the right of bit `k` of PORT_RIGHTS: 0 firmware, 1 keys, 2 injection (Table 03-6). -/
def State.right (s : State) (n k : Nat) : Bool := !s.regB Reg.portRights (4 * n + k)

/-- Device in Ground Floor mode. -/
def State.inGf (s : State) : Bool := s.fc.groundFloor

-- Semaphores -------------------------------------------------------------------------------------------

/-- The holder's owner code, 0 when the semaphore is free (R50). -/
def State.holder (s : State) (n : Nat) : Nat := s.sem.get n 0

/-- The state with a semaphore's holder set. -/
def State.setHolder (s : State) (n code : Nat) : State := { s with sem := s.sem.put n code }

/-- A function of port `n` holds SEM[0] (R4, R37). -/
def State.portHolds0 (s : State) (n : Nat) : Bool :=
  let c := s.holder 0
  decide (1 ≤ c) && decide (c ≤ 0x80) && portOf (c - 1) == n

/-- The agent's port, or pair, holds SEM[0]. -/
def State.holds0 (s : State) : Agent → Bool
  | .fn f => s.portHolds0 (portOf f.val)
  | .cp k => s.holder 0 == (Agent.cp k).code

-- Interrupt sources -------------------------------------------------------------------------------------

/-- The entry of an interrupt source. -/
def State.ist (s : State) (n : Nat) : IstEntry := s.ic.ist.get n IstEntry.reset

/-- The state with an interrupt source's entry replaced. -/
def State.setIst (s : State) (n : Nat) (e : IstEntry) : State :=
  { s with ic := { s.ic with ist := s.ic.ist.put n e } }

/-- A source is raised (R311, R315): PEND is set, or the raise is caught by the always-on detector while the
IC is gated (R321); a raise in cycles L + 1 to L + 4 of a delivery keeps PEND. -/
def State.raise (s : State) (src : Nat) : State :=
  if src ≥ 1023 then s
  else if s.ic.gated then { s with ic := { s.ic with caught := s.ic.caught ++ [src] } }
  else
    let e := s.ist src
    match e.latched with
    | some l => if s.cyc ≤ l then s.setIst src { e with pend := true }
                else s.setIst src { e with pend := true, reRaised := true }
    | none => s.setIst src { e with pend := true }

/-- A wake event on a sleeping port (R325, Table 14-5): with WAKE_EN in D3cold, WAKEn_N is asserted. -/
def State.wakePort (s : State) (n : Nat) : State :=
  if s.regB (Reg.wakeCtrl n) 31 && (s.port n).d3cold then s.setRegB (Reg.wakeCtrl n) 29 true else s

-- Faults -------------------------------------------------------------------------------------------------

/-- A row of Table 17-3: code, class, escalates, injectable. -/
structure FaultRow where
  code : Nat
  cls : Nat
  esc : Bool
  inj : Bool
deriving DecidableEq, Repr

/-- Table 17-3. -/
def faultTable : List FaultRow :=
  [⟨0x0101, 1, true, true⟩, ⟨0x0102, 1, true, true⟩, ⟨0x0103, 0, false, true⟩,
   ⟨0x0201, 1, true, true⟩, ⟨0x0202, 1, true, true⟩, ⟨0x0203, 0, false, true⟩,
   ⟨0x0301, 1, true, true⟩, ⟨0x0401, 0, true, true⟩, ⟨0x0501, 1, true, true⟩, ⟨0x0502, 1, true, true⟩,
   ⟨0x0503, 0, false, false⟩, ⟨0x0601, 1, false, true⟩, ⟨0x0602, 1, false, false⟩, ⟨0x0603, 1, true, true⟩,
   ⟨0x0701, 1, false, true⟩, ⟨0x0702, 1, true, true⟩, ⟨0x0703, 1, false, true⟩, ⟨0x0801, 0, false, true⟩,
   ⟨0x0802, 0, true, true⟩, ⟨0x0803, 0, false, false⟩, ⟨0x0804, 1, false, true⟩, ⟨0x0805, 2, false, true⟩,
   ⟨0x0806, 0, false, true⟩, ⟨0x0901, 0, false, true⟩, ⟨0x0902, 2, false, true⟩, ⟨0x0A01, 0, false, false⟩,
   ⟨0x0A02, 0, false, false⟩, ⟨0x0A03, 0, false, false⟩, ⟨0x0B01, 0, false, false⟩, ⟨0x0B02, 0, false, false⟩,
   ⟨0x0C01, 0, true, true⟩, ⟨0x0C02, 2, false, true⟩, ⟨0x0C03, 0, false, false⟩, ⟨0x0C04, 2, false, true⟩,
   ⟨0x0C05, 2, false, false⟩, ⟨0x0D01, 0, false, false⟩, ⟨0x0D02, 2, false, true⟩, ⟨0x0D03, 2, false, false⟩]

/-- The row of a fault code. -/
def faultRow (code : Nat) : FaultRow := (faultTable.find? fun r => r.code == code).getD ⟨code, 0, false, false⟩

/-- A fault as its unit reports it (R371, R372). -/
structure Report where
  unit : Nat
  code : Nat
  /-- Class before escalation: the code's, or P2 of an injection (R383). -/
  cls : Nat
  injected : Bool
  session : Option Nat
  fid : Option Nat
  detail : Nat
  reaction : Nat
  outcome : Nat
deriving DecidableEq, Repr

/-- A report of a code at its own class, with nothing named. -/
def Report.of (unit code : Nat) : Report :=
  { unit, code, cls := (faultRow code).cls, injected := false, session := none, fid := none, detail := 0,
    reaction := 0, outcome := 0 }

/-- Unacknowledged entries, FC.STATUS.UNACKED. -/
def State.unacked (s : State) : Nat := s.fc.hist.count fun _ h => !h.acked

/-- FC.STATUS.UNACKED brought up to date. -/
def State.syncUnacked (s : State) : State := s.setRegF Reg.fcStatus 16 5 s.unacked

/-- The slot of the oldest entry that satisfies `p`: the smallest SEQ, as SEQ − HEAD is signed. -/
def oldestSlot (head : Nat) (t : Tbl Hist) (p : Hist → Bool) : Option Nat :=
  (t.foldl (fun (acc : Option (Nat × Nat)) e =>
    if p e.2 then
      let age := (head + 2 ^ 32 - e.2.seq) % 2 ^ 32
      match acc with
      | some (_, best) => if age > best then some (e.1, age) else acc
      | none => some (e.1, age)
    else acc) none).map (·.1)

/-- The slot a new entry of class `cls` takes (R379). -/
def State.histSlot (s : State) (cls : Nat) : Option Nat :=
  let t := s.fc.hist
  let head := (s.reg Reg.headSeq).toNat
  match (List.range 16).find? fun k => (t.find k).isNone with
  | some k => some k
  | none =>
    match oldestSlot head t (fun h => h.acked) with
    | some k => some k
    | none =>
      match (if cls ≥ 1 then oldestSlot head t (fun h => h.cls == 0) else none) with
      | some k => some k
      | none => if cls ≥ 2 then oldestSlot head t (fun h => h.cls == 1) else none

/-- A fault escalates when an unacknowledged entry of the same class, unit and INJECTED flag stands in the
history and its code escalates; a FATAL fault never does (R381). -/
def State.escalates (s : State) (r : Report) : Bool :=
  (faultRow r.code).esc && decide (r.cls < 2) &&
    s.fc.hist.any fun e => !e.2.acked && e.2.cls == r.cls && e.2.unit == r.unit && e.2.injected == r.injected

/-- What the record of a fault gave: its SEQ, its class after escalation, whether it was folded. -/
structure Recorded where
  st : State
  seq : Nat
  cls : Nat
  folded : Bool

/-- The counters that every fault moves (Table 19-11). -/
def State.countFault (s : State) (unit cls : Nat) : State :=
  (s.bumpSat (Reg.classCount cls) 0 32 1).bumpSat (Reg.kindCount (unit / 256 % 16)) 0 32 1

/-- A fault is recorded (R377–R381): folded, written or lost; its class's interrupt source is raised. The
reaction of the class is the caller's. -/
def State.record (s : State) (r : Report) : Recorded :=
  let esc := s.escalates r
  let cls := if esc then r.cls + 1 else r.cls
  let row := faultRow r.code
  let s1 := s.countFault r.unit cls
  let headSlot := s.regF Reg.fcStatus 24 4
  match (if cls == 0 && !row.esc then s.fc.hist.find headSlot else none) with
  | some h =>
    if h.unit == r.unit && h.code == r.code && h.injected == r.injected then
      let s2 := { s1 with fc := { s1.fc with hist := s1.fc.hist.put headSlot { h with repeats := satInc 16 h.repeats } } }
      ⟨s2.raise 964, h.seq, cls, true⟩
    else fresh s1 esc cls row
  | none => fresh s1 esc cls row
where
  /-- A fault that takes a SEQ of its own. DEDUCED: a FATAL entry of a code marked No in the Esc. column is written
  with ACKED = 0 too (R378; log 61). -/
  fresh (s : State) (esc : Bool) (cls : Nat) (row : FaultRow) : Recorded :=
    let h := (s.reg Reg.headSeq).toNat
    let seq := if h ≥ 2 ^ 32 - 1 then 1 else h + 1
    let s1 := (s.setReg Reg.headSeq (loW seq)).setReg (Reg.lastSeq cls) (loW seq)
    let s2 := if esc then s1.bumpSat Reg.escalations 0 32 1 else s1
    let e : Hist :=
      { seq, time := s.now, cls, injected := r.injected, escalated := esc,
        acked := !row.esc && !esc && decide (cls < 2), session := r.session, unit := r.unit, code := r.code,
        reaction := r.reaction, fid := r.fid, detail := r.detail, outcome := r.outcome, repeats := 0, cyc := s.cyc }
    let s3 := match s.histSlot cls with
      | some k => ({ s2 with fc := { s2.fc with hist := s2.fc.hist.put k e } }.setRegF Reg.fcStatus 24 4 k).syncUnacked
      | none => (s2.bumpSat Reg.fcStatus 0 16 1).raiseB Reg.fcStatus 28
    let s4 := if cls ≥ 1 then
        ([0, 1].foldl (fun st n => if st.regB (Reg.wakeCtrl n) 28 then st.wakePort n else st) s3)
      else s3
    ⟨s4.raise (964 + min cls 2), seq, cls, false⟩

/-- UNIT_OUTCOME of the entry with this SEQ is set (R373, R376). -/
def State.setOutcome (s : State) (seq o : Nat) : State :=
  { s with fc := { s.fc with hist := s.fc.hist.mapIf (fun _ h => h.seq == seq) fun h => { h with outcome := o } } }

/-- A corrected host-protocol event (0x0B01) of function `fid`, with the register offset or queue as DETAIL. -/
def State.protoEvent (s : State) (fid detail : Nat) : State :=
  let s1 := s.bumpSat (Reg.protoEvents (portOf fid)) 0 32 1
  (s1.record { Report.of (0x0B00 + fid) 0x0B01 with fid := some fid, detail }).st

/-- A host-protocol event that names an agent. A control processor has no FID and no port: its event names instance
owner code − 1 and moves no PROTO_EVENTS counter (R51, R56; DESIGN CHOICE, log 62). -/
def State.protoEventA (s : State) (a : Agent) (detail : Nat) : State :=
  match a with
  | .fn f => s.protoEvent f.val detail
  | .cp _ => (s.record { Report.of (0x0B00 + (a.code - 1)) 0x0B01 with detail }).st

/-- A write of the RWS bits `m` of a register (R37, R440): it takes effect for an agent whose port holds SEM[0]; any
other write, and every VF's (R47), is dropped, and logged where it would change one of those bits. -/
def State.rwsWrite (s : State) (a : Agent) (off : Nat) (m v : Word) : State :=
  if s.holds0 a && !a.isVf then s.setReg off ((s.reg off &&& ~~~m) ||| (v &&& m))
  else if v &&& m == s.reg off &&& m then s else s.protoEventA a off

end Sys2Proof.Machine
end

