-- ==== Sys2Proof/Machine/Memory.lean ====
section
/-! DEFINITION. Device memory (R264): bytes with one canonical form, poisoned lines, the address maps of
Table 12-2 and stripe parity (R265, R267). The bytes are the logical contents: parity, spares and rebuild
never change what a read returns unless data is lost (R269, R273, R278). -/

namespace Sys2Proof.Machine

/-- Device memory ends here: 48 GiB (R264). -/
def memEnd : Nat := 0xC00000000

/-- What a byte nothing has written reads as. -/
def Mem.bg (m : Mem) (a : Nat) : Byte := if m.epoch = 0 then 0 else Config.freeByte m.epoch a

/-- The byte that was written last at an address, or what an unlisted one reads as. -/
def Mem.cell (m : Mem) (a : Nat) : Byte := Tbl.get (α := Byte) m.cells a (m.bg a)

/-- The free index of an address whose contents are undefined (R33). -/
def Mem.undefAt (m : Mem) (a : Nat) : Option Nat :=
  (m.undef.find? fun u => decide (u.start ≤ a) && decide (a < u.stop)).map (·.idx)

/-- One byte of device memory. -/
def Mem.read (m : Mem) (a : Nat) : Byte :=
  match m.undefAt a with
  | some k => Config.outputByte k a
  | none => m.cell a

/-- What stays undefined of a range after a write of [a, a + n): the output of a picture that has not completed does
whole (R33). -/
def Undef.outside (a n : Nat) (u : Undef) : List Undef :=
  if u.live then [u]
  else [{ u with stop := min u.stop a }, { u with start := max u.start (a + n) }].filter fun v => decide (v.start < v.stop)

/-- The address lies in the output of a picture that has not completed: no write from elsewhere shows there (R33). -/
def Mem.claimed (m : Mem) (a : Nat) : Bool := m.undef.any fun u => u.live && decide (u.start ≤ a) && decide (a < u.stop)

/-- The bytes [a, a + n) are no longer undefined, but for outputs of pictures that have not completed. -/
def Mem.define (m : Mem) (a n : Nat) : Mem := { m with undef := m.undef.flatMap (Undef.outside a n) }

/-- The ranges (address, bytes) hold undefined contents on behalf of a frame (R33). -/
def Mem.undefine (m : Mem) (frame idx : Nat) (rs : List (Nat × Nat)) : Mem :=
  { m with undef := rs.map (fun r => ⟨r.1, r.1 + r.2, idx, frame, true⟩) ++ m.undef }

/-- A frame ended without its picture: its output stays undefined until something else is written there (R33). -/
def Mem.ended (m : Mem) (frame : Nat) : Mem :=
  { m with undef := m.undef.map fun u => if u.frame = frame then { u with live := false } else u }

/-- A packet ended before its pictures became frames: its outputs hold what they held. -/
def Mem.dismissed (m : Mem) (packet : Nat) : Mem := { m with undef := m.undef.filter fun u => !(u.live && u.frame / 4096 == packet) }

/-- Frames of packets get other numbers (R95). -/
def Mem.renumbered (m : Mem) (g : Nat → Nat) : Mem :=
  { m with undef := m.undef.map fun u => { u with frame := g (u.frame / 4096) * 4096 + u.frame % 4096 } }

/-- A frame's output is complete: what was not written of it is as it was (R222). -/
def Mem.settled (m : Mem) (frame : Nat) : Mem := { m with undef := m.undef.filter fun u => u.frame != frame }

/-- Device memory with one byte written; a byte equal to what an unlisted address reads as is not listed. -/
def Mem.write (m : Mem) (a : Nat) (b : Byte) : Mem :=
  { m with cells := if b = m.bg a then Tbl.del (α := Byte) m.cells a else Tbl.put (α := Byte) m.cells a b }

/-- `n` bytes from address `a` up. -/
def Mem.readN (m : Mem) (a n : Nat) : List Byte := (List.range n).map fun i => m.read (a + i)

/-- Bytes written from address `a` up, data only. -/
def Mem.writeN (m : Mem) (a : Nat) : List Byte → Mem
  | [] => m
  | b :: r => (m.write a b).writeN (a + 1) r

/-- The line holding address `a` carries the poison code (R279). -/
def Mem.isPoisoned (m : Mem) (a : Nat) : Bool := m.poisoned.contains (a / 64)

/-- Some line of the range carries the poison code. -/
def Mem.poisonIn (m : Mem) (a n : Nat) : Bool :=
  n != 0 && m.poisoned.any fun l => decide (a / 64 ≤ l) && decide (l ≤ (a + n - 1) / 64)

/-- Lines `l` cut out of the stripes that the range covers whole: a full-stripe write clears them (R279). -/
def Mem.unpoison (m : Mem) (a n : Nat) : Mem :=
  { m with poisoned := m.poisoned.filter fun l =>
      let st := l / 16
      !(decide (a ≤ st * 1024) && decide (st * 1024 + 1024 ≤ a + n)) }

/-- A write of the range as requesters make it: bytes, and full stripes clear poison (R267, R279). -/
def Mem.store (m : Mem) (a : Nat) (bs : List Byte) : Mem := ((m.define a bs.length).unpoison a bs.length).writeN a bs

/-- The line holding address `a` is marked poisoned. -/
def Mem.poison (m : Mem) (a : Nat) : Mem :=
  if m.poisoned.contains (a / 64) then m else { m with poisoned := m.poisoned ++ [a / 64] }

/-- All device memory written with zeros as full stripes (R409, R415). -/
def Mem.zeroAll (m : Mem) : Mem := { m with cells := [], epoch := 0, poisoned := [], undef := [] }

/-- The contents become undefined (R266). -/
def Mem.undefineAll (m : Mem) : Mem :=
  { cells := [], epoch := m.made + 1, made := m.made + 1, poisoned := [], undef := [] }

/-- A range written with zeros. -/
def Mem.zeroRange (m : Mem) (a n : Nat) : Mem :=
  let m1 := (m.define a n).unpoison a n
  if m1.epoch = 0 then
    { m1 with cells := m1.cells.filter fun c => !(decide (a ≤ c.1) && decide (c.1 < a + n)) }
  else m1.writeN a (List.replicate n 0)

/-- Addresses rise strictly and no entry equals what an unlisted address reads as. -/
abbrev Mem.wf (m : Mem) : Prop :=
  m.cells.Pairwise (fun x y => x.1 < y.1) ∧ ∀ c ∈ m.cells, c.2 ≠ m.bg c.1

/-- The state's memory with a store. -/
def State.store (s : State) (a : Nat) (bs : List Byte) : State := { s with mem := s.mem.store a bs }

/-- A word of device memory, little-endian (R3). -/
def State.loadW (s : State) (a : Nat) : Word := wordOfBytes (s.mem.readN a 4)

/-- `n` words of device memory from `a`. -/
def State.loadWs (s : State) (a n : Nat) : List Word := (List.range n).map fun i => s.loadW (a + 4 * i)

-- Stripes and maps ------------------------------------------------------------------------------------

/-- Group of page `n` under a map (Table 12-2). -/
def mapGroup (amap n : Nat) : Nat :=
  if amap = 2 then n / 32 % 24
  else if amap = 3 then (n + 5 * (n / 24)) % 24
  else n % 24

/-- In-group page of page `n` under a map (Table 12-2). -/
def mapPage (amap n : Nat) : Nat := if amap = 2 then 32 * (n / 768) + n % 32 else n / 24

/-- In-group stripe index t of a device address (R265). -/
def stripeIndex (amap a : Nat) : Nat := 64 * mapPage amap (a / 65536) + a / 1024 % 64

/-- The member that holds a stripe's parity (R265). -/
def parityMember (t : Nat) : Nat := t % 5

/-- The member that holds data unit `d` of stripe t (R265). -/
def unitMember (t d : Nat) : Nat := (t % 5 + 1 + d) % 5

/-- Bank group, bank, column unit and row of stripe t under a map (Table 12-2). -/
def bankPlace (amap t : Nat) : Nat × Nat × Nat × Nat :=
  if amap = 1 then (t % 4, t / 16 % 8, t / 4 % 4, t / 128 % 16384)
  else (t % 4, t / 4 % 8, t / 32 % 4, t / 128 % 16384)

/-- Bytewise exclusive OR of the data units: the stripe's parity (R267). -/
def parityOf (units : List (List Byte)) : List Byte :=
  (List.range 256).map fun i => units.foldl (fun acc u => acc ^^^ u.getD i 0) 0

/-- The unit of a stripe rebuilt from the other three data units and the parity (R273, R278). -/
def rebuildUnit (others : List (List Byte)) (parity : List Byte) : List Byte := parityOf (parity :: others)

/-- MC.CTRL.AMAP in force. -/
def State.amap (s : State) : Nat := s.regF Reg.mcCtrl 0 2

/-- STATE of a stripe group (Table 12-7). -/
def State.sgState (s : State) (g : Nat) : Nat := s.regF (Reg.sgStatus g) 29 3

/-- Groups that are AT_RISK. -/
def State.atRisk (s : State) : List Nat := (List.range 24).filter fun g => s.sgState g == 3

/-- Some page of the range lies in an AT_RISK group under the map in force (R280, R296). -/
def State.rangeAtRisk (s : State) (a n : Nat) : Bool :=
  let risk := s.atRisk
  if risk.isEmpty then false
  else (List.range ((a + n - 1) / 65536 - a / 65536 + 1)).any fun i =>
    risk.contains (mapGroup s.amap (a / 65536 + i))

-- Self-refresh ------------------------------------------------------------------------------------------

/-- Stack of a group. -/
def stackOf (g : Nat) : Nat := g / 6

/-- The stack is in self-refresh. -/
def State.asleep (s : State) (n : Nat) : Bool := s.regB (Reg.stackStatus n) 30

/-- Refresh interval of a stack in ticks (R270). -/
def State.refInterval (s : State) (n : Nat) : Nat := if s.regB (Reg.stackStatus n) 31 then 195 else 390

/-- Refreshes of a stack's banks count from the present interval, with nothing owed (R272). -/
def State.restartRefresh (s : State) (n : Nat) : State :=
  let i := s.refInterval n
  { s with mc := { s.mc with paid := s.mc.paid.filter (fun e => e.1 / 1024 != n),
                             refreshBase := s.mc.refreshBase.put n (0, s.time.raw / i * i) } }

/-- Exit from self-refresh (R272): refresh debts restart at 0. -/
def State.wakeStack (s : State) (n : Nat) : State :=
  if s.asleep n then (s.restartRefresh n).setRegB (Reg.stackStatus n) 30 false else s

/-- The stacks that hold some page of a range are awake before it is served (R272). -/
def State.wakeFor (s : State) (a n : Nat) : State :=
  if n = 0 then s
  else (List.range (min 24 ((a + n - 1) / 65536 - a / 65536 + 1))).foldl
    (fun st i => st.wakeStack (stackOf (mapGroup s.amap (a / 65536 + i)))) s

end Sys2Proof.Machine
end

