-- ==== Sys2Proof/Machine/Cenc.lean ====
section
/-! DEFINITION. Stage 1 of a decode span on a protected unit (R224–R226): common encryption in the schemes 'cenc' and 'cbcs',
with subsample entries. -/

namespace Sys2Proof.Machine

/-- A protection record (Table 10-5) with its entries: CLEAR_BYTES and PROTECTED_BYTES. -/
structure Protection where
  cbcs : Bool
  crypt : Nat
  skip : Nat
  ivSize : Nat
  iv : List Byte
  entries : List (Nat × Nat)
deriving DecidableEq, Repr

/-- The protection record at an address (Table 10-5). -/
def State.protectionAt (s : State) (a : Nat) : Protection :=
  let w := s.loadWs a 8
  { cbcs := fld (wd w 0) 24 8 == 1, crypt := fld (wd w 0) 20 4, skip := fld (wd w 0) 16 4, ivSize := fld (wd w 1) 0 8,
    iv := s.mem.readN (a + 8) 16,
    entries := (List.range (fld (wd w 0) 0 16)).map fun e => (fld (s.loadW (a + 32 + 8 * e)) 0 16, (s.loadW (a + 36 + 8 * e)).toNat) }

/-- A big-endian number of some bytes, and its 16 bytes. -/
def beNat (bs : List Byte) : Nat := bs.foldl (fun n b => 256 * n + b.toNat) 0
def beBlock (n : Nat) : List Byte := (List.range 16).map fun i => BitVec.ofNat 8 (n / 256 ^ (15 - i))

/-- The first counter block of a unit (R226): an 8-byte IV and a block counter of 0, or a 16-byte IV whole. -/
def Protection.counter (p : Protection) : Nat := if p.ivSize = 8 then beNat (p.iv.take 8) * 2 ^ 64 else beNat (p.iv.take 16)

/-- Byte `i` of the keystream of a unit: counter block i / 16, the counter being one 128-bit number. -/
def keystreamByte (key : List Byte) (counter i : Nat) : Byte :=
  (Config.aesEncrypt key (beBlock ((counter + i / 16) % 2 ^ 128))).getD (i % 16) 0

/-- A protected range of a 'cenc' unit whose keystream stands at byte `pos`. -/
def ctrRange (key : List Byte) (counter pos : Nat) (bs : List Byte) : List Byte :=
  bs.zipIdx.map fun (b, i) => b ^^^ keystreamByte key counter (pos + i)

/-- A protected range of a 'cbcs' unit: `crypt` blocks in CBC, then `skip` clear ones, and so on; `n` counts blocks into the
pattern and `fuel` bounds the blocks. -/
def cbcRange (key : List Byte) (crypt skip : Nat) (fuel : Nat) (n : Nat) (prev bs : List Byte) : List Byte :=
  match fuel with
  | 0 => bs
  | fuel + 1 =>
    if bs.length < 16 then bs
    else
      let b := bs.take 16
      let next := (n + 1) % max 1 (crypt + skip)
      if n < crypt then
        ((Config.aesDecrypt key b).zip prev).map (fun (x, y) => x ^^^ y) ++ cbcRange key crypt skip fuel next b (bs.drop 16)
      else b ++ cbcRange key crypt skip fuel next prev (bs.drop 16)

/-- The clear bytes of a unit, subsample by subsample; `pos` is where the keystream stands: clear ranges do not move it
(R226). -/
def decryptUnit (p : Protection) (key : List Byte) (pos : Nat) : List (Nat × Nat) → List Byte → List Byte
  | [], bs => bs
  | (c, n) :: es, bs =>
    let range := (bs.drop c).take n
    let clear := if p.cbcs then cbcRange key p.crypt p.skip (n / 16 + 1) 0 p.iv range else ctrRange key p.counter pos range
    bs.take c ++ clear ++ decryptUnit p key (pos + n) es (bs.drop (c + n))

end Sys2Proof.Machine
end

