-- ==== Sys2Proof/Machine/Buffers.lean ====
section
/-! DEFINITION. Buffer pools (R285–R297): layout, handles, the checks of a buffer reference (R79), owners,
pins, release and clearing. -/

namespace Sys2Proof.Machine

/-- SIZE of pool p (Table 13-1). -/
def poolSize (p : Nat) : Nat := 512 * 4 ^ p

/-- COUNT of pool p. -/
def State.poolCount (s : State) (p : Nat) : Nat := s.regF (Reg.poolCfg p) 0 18

/-- Where the regions of the pools above p end: the region base of pool p (R286). -/
def State.poolBase (s : State) (p : Nat) : Nat :=
  (((List.range 8).filter fun q => p < q).map fun q => s.poolCount q * poolSize q).foldl (· + ·) 0

/-- The address at which POOL[0]'s region ends (R45, R201). -/
def State.poolsEnd (s : State) : Nat := s.poolBase 0 + s.poolCount 0 * poolSize 0

/-- Key of a buffer in the Buffer Table. -/
def bufKey (p i : Nat) : Nat := p * 131072 + i

/-- The entry of a buffer. -/
def State.buf (s : State) (k : Nat) : Buf := s.bpm.bufs.get k Buf.reset

/-- The state with a buffer's entry replaced. -/
def State.setBuf (s : State) (k : Nat) (b : Buf) : State := { s with bpm := { s.bpm with bufs := s.bpm.bufs.put k b } }

/-- A pool's free list. -/
def State.pool (s : State) (p : Nat) : Pool := s.bpm.pools.get p Pool.reset

/-- The state with a pool's free list replaced. -/
def State.setPool (s : State) (p : Nat) (q : Pool) : State :=
  { s with bpm := { s.bpm with pools := s.bpm.pools.put p q } }

/-- Device address of buffer i of pool p (R286). -/
def State.bufAddr (s : State) (k : Nat) : Nat := s.poolBase (k / 131072) + k % 131072 * poolSize (k / 131072)

/-- Buffer i of pool p lies in an AT_RISK group (R296). -/
def State.bufAtRisk (s : State) (k : Nat) : Bool := s.rangeAtRisk (s.bufAddr k) (poolSize (k / 131072))

/-- FREE of a pool: buffers on the free list (Table 13-2). -/
def State.poolFree (s : State) (p : Nat) : Nat :=
  if !s.bpm.live then 0
  else
    let q := s.pool p
    s.poolCount p - q.fresh - (s.bpm.bufs.count fun k b => k / 131072 == p && decide (q.fresh ≤ k % 131072) &&
      b.state == 3) + q.returned.length

/-- RETIRED buffers of a pool (Table 19-14). -/
def State.poolRetired (s : State) (p : Nat) : Nat :=
  s.bpm.bufs.count fun k b => k / 131072 == p && b.state == 3

/-- DRAINING buffers of a pool. -/
def State.poolDraining (s : State) (p : Nat) : Nat :=
  s.bpm.bufs.count fun k b => k / 131072 == p && b.state == 2

/-- A handle's pool, index and generation (R288). -/
def handleKey (h : Word) : Nat := bufKey (fld h 29 3) (fld h 12 17)

/-- A handle of a buffer at a generation (R288). -/
def mkHandle (k gen : Nat) : Word := at_ 29 (k / 131072) ||| at_ 12 (k % 131072) ||| at_ 0 gen

/-- The handle is current (R288). -/
def State.handleCurrent (s : State) (h : Word) : Bool :=
  let b := s.buf (handleKey h)
  s.bpm.live && decide (fld h 12 17 < s.poolCount (fld h 29 3)) && b.state == 1 && b.gen == fld h 0 12

/-- The function is an owner of the handle's buffer. -/
def State.handleOwned (s : State) (h : Word) (fid : Nat) : Bool := (s.buf (handleKey h)).owners.contains fid

/-- How a check refuses: STATUS, REASON and the parameter word that V1 names (R77, R84). -/
structure Refuse where
  status : Nat
  reason : Nat
  v1 : Nat
deriving DecidableEq, Repr

/-- Items 1 and 2 of R79: the handle is current and owned by the function. -/
def State.checkHandle (s : State) (fid : Nat) (h : Word) (v1 : Nat) : Option Refuse :=
  if !s.handleCurrent h then some ⟨0x18, 0x0302, v1⟩
  else if !s.handleOwned h fid then some ⟨0x12, 0x0303, v1⟩
  else none

/-- Item 3 of R79: `n` bytes from the offset lie inside the buffer. -/
def rangeInside (h : Word) (off n : Nat) : Bool := decide (off + n ≤ poolSize (fld h 29 3))

/-- The checks of a buffer reference in R79's order. -/
def State.checkRef (s : State) (fid : Nat) (h off : Word) (n v1 : Nat) : Option Refuse :=
  match s.checkHandle fid h v1 with
  | some r => some r
  | none => if rangeInside h off.toNat n then none else some ⟨0x15, 0x0301, v1⟩

/-- Device address of a buffer reference. -/
def State.refAddr (s : State) (h off : Word) : Nat := s.bufAddr (handleKey h) + off.toNat

/-- A buffer is pinned (R294). -/
def State.pin (s : State) (k : Nat) : State :=
  let b := s.buf k
  s.setBuf k { b with pins := b.pins + 1 }

/-- One pin of a buffer drops. -/
def State.unpin (s : State) (k : Nat) : State :=
  let b := s.buf k
  s.setBuf k { b with pins := b.pins - 1 }

/-- Several buffers are pinned. -/
def State.pinAll (s : State) (ks : List Nat) : State := ks.foldl State.pin s

/-- The pins of several buffers drop. -/
def State.unpinAll (s : State) (ks : List Nat) : State := ks.foldl State.unpin s

/-- The generation after the buffer's last owner has left it: 4,095 is followed by 1 (R288). -/
def nextGen (g : Nat) : Nat := if g ≥ 4095 then 1 else g + 1

/-- A function leaves a buffer's owner list; when none remain the generation advances and the buffer
becomes DRAINING (R293, R295). -/
def State.dropOwner (s : State) (k fid : Nat) : State :=
  let b := s.buf k
  let rest := b.owners.filter fun o => o != fid
  if rest.isEmpty then
    (s.setBuf k { b with owners := [], gen := nextGen b.gen, state := 2 }).bump Reg.totalFrees 0 32
  else s.setBuf k { b with owners := rest }

/-- A function leaves every owner list (R295). -/
def State.dropOwnerEverywhere (s : State) (fid : Nat) : State :=
  (s.bpm.bufs.keysWhere fun _ b => b.state == 1 && b.owners.contains fid).foldl
    (fun st k => st.dropOwner k fid) s

/-- A run of pages is recorded in the Retired Page List while it has room; OVERFLOW is set when all entries are used (R281). A run that the list
already holds is not recorded twice: 128 buffers of POOL[0] share a page (log 21). -/
def State.recordPages (s : State) (first len : Nat) : State :=
  if s.mc.rpl.contains (first, len) then s
  else if s.mc.rpl.length ≥ 4096 then s
  else
    let s1 := { s with mc := { s.mc with rpl := s.mc.rpl ++ [(first, len)] } }
    if s.mc.rpl.length + 1 = 4096 then s1.raiseB Reg.rplStatus 31 else s1

/-- A buffer is RETIRED and its pages recorded (R296). -/
def State.retireBuf (s : State) (k : Nat) : State :=
  let a := s.bufAddr k
  let n := poolSize (k / 131072)
  (s.setBuf k { s.buf k with state := 3, owners := [] }).recordPages (a / 65536)
    ((a + n - 1) / 65536 - a / 65536 + 1)

/-- The pools' free buffers in an AT_RISK group are retired at once (R296): their pages are recorded and
they leave the free lists. Before the device-level check accepts there are none (log 56). -/
def State.retireFree (s : State) : State :=
  if !s.bpm.live then s
  else (List.range 8).foldl (fun st p =>
    let q := st.pool p
    let idxs := ((List.range (st.poolCount p - q.fresh)).map (q.fresh + ·) ++ q.returned).filter
      fun i => st.bufAtRisk (bufKey p i) && (st.buf (bufKey p i)).state == 0
    let st1 := idxs.foldl (fun u i => u.retireBuf (bufKey p i)) st
    st1.setPool p { q with returned := q.returned.filter fun i => !idxs.contains i }) s

/-- The head of a pool's free list and the pool without it; indices that were retired are passed over. -/
def State.takeFree? (s : State) (p : Nat) : Option (Nat × Pool) :=
  let q := s.pool p
  let c := s.poolCount p
  let later :=
    match q.returned with
    | [] => none
    | i :: r => some (i, { q with fresh := c, returned := r })
  if q.fresh < c && (s.buf (bufKey p q.fresh)).state == 0 then some (q.fresh, { q with fresh := q.fresh + 1 })
  else
    match (List.range (c - q.fresh)).find? fun i => (s.buf (bufKey p (q.fresh + i))).state == 0 with
    | some i => some (q.fresh + i, { q with fresh := q.fresh + i + 1 })
    | none => later

end Sys2Proof.Machine
end

