-- ==== Sys2Proof/Machine/Operands.lean ====
section
/-! DEFINITION. Operands of packets: the fields of a submission entry (Table 04-1), of a session
(Table 05-1), the contexts that run packets, and the completion a packet ends with (R67–R84). -/

namespace Sys2Proof.Machine

-- Submission entries ----------------------------------------------------------------------------------

/-- OPC. -/
def Packet.opc (p : Packet) : Nat := fld (wd p.words 0) 0 8
/-- FLAGS bit FENCE. -/
def Packet.fence (p : Packet) : Bool := bit (wd p.words 0) 8
/-- FLAGS bit NOIRQ. -/
def Packet.noIrq (p : Packet) : Bool := bit (wd p.words 0) 9
/-- FLAGS bit URGENT. -/
def Packet.urgent (p : Packet) : Bool := bit (wd p.words 0) 10
/-- FLAGS bit PROTECTED_HINT. -/
def Packet.protectedHint (p : Packet) : Bool := bit (wd p.words 0) 11
/-- SESSION. -/
def Packet.sessField (p : Packet) : Nat := fld (wd p.words 0) 16 9
/-- TAG. -/
def Packet.tag (p : Packet) : Nat := fld (wd p.words 1) 0 16
/-- CQ. -/
def Packet.cq (p : Packet) : Nat := fld (wd p.words 1) 16 13
/-- DEADLINE. -/
def Packet.deadline (p : Packet) : Nat := pair64 (wd p.words 3) (wd p.words 2)
/-- Parameter word P`i`. -/
def Packet.p (p : Packet) (i : Nat) : Word := wd p.words (4 + i)
/-- Parameter words `i`, `i + 1` as one 64-bit bus address. -/
def Packet.bus (p : Packet) (i : Nat) : Nat := pair64 (p.p (i + 1)) (p.p i)

/-- One row of Table 04-5: opcode, whether it names a session, whether it is a frame opcode, and the bits
of P0–P11 the row gives. -/
structure OpRow where
  opc : Nat
  sess : Bool
  frame : Bool
  masks : List Word
deriving DecidableEq, Repr

/-- A whole parameter word. -/
def allW : Word := 0xFFFFFFFF

/-- Table 04-5 up to 0xA1; a parameter word the list does not reach is reserved (R66). -/
def opTable : List OpRow :=
  [⟨0x00, false, false, []⟩, ⟨0x01, false, false, [allW]⟩, ⟨0x10, true, false, [allW, allW, 1]⟩,
   ⟨0x11, true, false, []⟩, ⟨0x12, true, false, [1]⟩, ⟨0x13, true, false, [allW, allW]⟩,
   ⟨0x20, true, true, [allW, allW, allW, 3, allW, allW, allW, allW]⟩, ⟨0x21, true, false, [1]⟩,
   ⟨0x22, true, false, [allW, allW, allW]⟩, ⟨0x24, true, false, [allW, allW, allW]⟩] ++
  [⟨0x30, true, true, [allW, allW, allW, 0x800000FF, allW, allW, allW, allW]⟩, ⟨0x31, true, false, []⟩,
   ⟨0x32, true, true, [allW, allW, allW, allW, 0x800000FF, allW, allW]⟩,
   ⟨0x40, false, false, [allW, allW, allW, allW, 1]⟩, ⟨0x41, false, false, [allW, allW, allW, allW, 3]⟩,
   ⟨0x42, false, false, [allW]⟩, ⟨0x50, false, false, [allW]⟩, ⟨0x51, false, false, [allW]⟩,
   ⟨0x52, false, false, [allW, 0x7F]⟩, ⟨0x60, false, false, [allW, allW, allW, allW]⟩] ++
  [⟨0x70, true, false, [allW, allW, allW]⟩, ⟨0x80, false, false, [allW, allW, allW, allW]⟩,
   ⟨0x81, false, false, [allW]⟩, ⟨0x90, false, false, [allW]⟩, ⟨0xA0, false, false, []⟩,
   ⟨0xA1, false, false, [allW, allW, allW, 1]⟩]

/-- The row of an opcode; none for an opcode Table 04-5 does not list and for 0xE0–0xEF. -/
def opRow (opc : Nat) : Option OpRow := opTable.find? fun r => r.opc == opc

/-- The attribute byte of a Loggia opcode (R345). -/
def State.loggiaAttr (s : State) (opc : Nat) : Byte := s.conc.attr.getD (opc - 0xE0) 0

/-- CONC.LOGGIA.STATE is LOADED. -/
def State.loggiaLoaded (s : State) : Bool := s.regF Reg.loggia 29 3 == 2

/-- A word of the control store by region (Table 15-5); NOP where nothing is loaded, and in the reserved region (R344, R346). -/
def State.storeWord (s : State) (a : Nat) : Word :=
  if a < 0xA000 then wd s.conc.vendor a
  else if a < 0xC000 then wd s.conc.patch (a - 0xA000)
  else if a < 0xE000 then 0
  else wd s.conc.store (a - 0xE000)

/-- Opcode 0xE0 + n is defined: LOADED, and word 0xE000 + n is a JMP into 0xE010–0xFFFF (R345). -/
def State.loggiaDefined (s : State) (opc : Nat) : Bool :=
  let w := s.storeWord (0xE000 + (opc - 0xE0))
  s.loggiaLoaded && fld w 26 6 == 0x10 && fld w 16 2 == 0 && decide (0xE010 ≤ fld w 0 16)

/-- The opcode names a session: the S of Table 04-5, or SESSION of a Loggia opcode's attribute. -/
def State.namesSession (s : State) (opc : Nat) : Bool :=
  if 0xE0 ≤ opc && opc ≤ 0xEF then (s.loggiaAttr opc).getLsbD 0
  else match opRow opc with
    | some r => r.sess
    | none => false

/-- The packet with this fetch number. -/
def State.packet? (s : State) (id : Nat) : Option Packet := s.qs.packets.find? fun p => p.id == id

/-- The state with the packets' list replaced. -/
def State.setPackets (s : State) (ps : List Packet) : State := { s with qs := { s.qs with packets := ps } }

/-- The state with one packet's state changed. -/
def State.setPState (s : State) (id : Nat) (st : PState) : State :=
  s.setPackets (s.qs.packets.map fun p => if p.id == id then { p with state := st } else p)

/-- The device-global configuration: the registers that hold RWS fields (R37, R39). -/
def Reg.globals : List Nat :=
  [Reg.devCtrl, Reg.pllCtrl 0, Reg.pllCtrl 1, Reg.rootCtrl, Reg.slotSel, Reg.slotData 0, Reg.slotData 1, Reg.slotData 2, Reg.slotCtrl,
   Reg.scratch 0, Reg.scratch 1, Reg.stepCtrl, Reg.pmbCfg, Reg.pmbAddr, Reg.crossTicks, Reg.icCtrl, Reg.injCtrl, Reg.chRetry,
   Reg.dmaArbCfg, Reg.mcArbCfg, Reg.schedCfg, Reg.mcCtrl, Reg.arbPrio, Reg.roundTicks, Reg.roundBaseLo, Reg.roundBaseHi,
   Reg.syncSrc] ++ (List.range 8).map Reg.poolCfg

-- Contexts ------------------------------------------------------------------------------------------

/-- Key of a context. -/
def ctxKey (c : Ctx) : Nat := c.pair.val * 8 + c.slot.val

/-- A context. -/
def State.ctx (s : State) (c : Ctx) : Context := s.conc.ctxs.get (ctxKey c) Context.reset

/-- The state with a context replaced. -/
def State.setCtx (s : State) (c : Ctx) (x : Context) : State :=
  { s with conc := { s.conc with ctxs := s.conc.ctxs.put (ctxKey c) x } }

/-- The pair's turn. -/
def State.turn (s : State) (p : Fin 2) : Turn := s.conc.turns.get p.val { cur := none, last := 7, since := 0, due := true }

/-- The pair executes the context. -/
def State.turnTo (s : State) (c : Ctx) : State :=
  { s with conc := { s.conc with turns := s.conc.turns.put c.pair.val { s.turn c.pair with cur := some c.slot.val } } }

/-- The pair may turn to another context (R333, R341): context 7 has yet to look at what waits, unless it is the one that stops; after
it round robin goes on where it stood. -/
def State.yieldTurn (s : State) (c : Ctx) : State :=
  let last := if c.slot = 7 then (s.turn c.pair).last else c.slot.val
  { s with conc := { s.conc with turns := s.conc.turns.put c.pair.val { cur := none, last, since := s.cyc, due := decide (c.slot ≠ 7) } } }

/-- The context has a routine that is not suspended: a packet's, or an event routine in its course. -/
def State.ctxReady (s : State) (c : Ctx) : Bool :=
  let x := s.ctx c
  x.waiting.isNone && (x.packet.isSome || (c.slot == 7 && x != Context.reset))

/-- The context that a pair executes, until it executes WAIT or KEY or ends (R333). -/
def State.current (s : State) (p : Fin 2) : Option Nat :=
  (s.turn p).cur.filter fun k => s.ctxReady { pair := p, slot := Fin.ofNat 8 k }

/-- The ready context that the pair resumes: round robin from the one after the one that stopped (R341). -/
def State.nextReady (s : State) (p : Fin 2) : Option Nat :=
  ((List.range 8).map fun i => ((s.turn p).last + 1 + i) % 8).find? fun k => s.ctxReady { pair := p, slot := Fin.ofNat 8 k }

/-- The pair is at the context: it executes it, or resumes it next. -/
def State.isAt (s : State) (c : Ctx) : Bool := ((s.current c.pair).orElse fun _ => s.nextReady c.pair) == some c.slot.val

/-- The context ends: it is free again and its pins drop (R294, R340); where the pair is at it, the pair turns to another
(R333). -/
def State.freeCtx (s : State) (c : Ctx) : State :=
  let t := (s.unpinAll (s.ctx c).pins).setCtx c Context.reset
  if s.isAt c then t.yieldTurn c else t

/-- The packet that runs in a context. -/
def State.running? (s : State) (c : Ctx) : Option Packet :=
  match (s.ctx c).packet with
  | some id => s.packet? id
  | none => none

-- Completions ---------------------------------------------------------------------------------------

/-- The device can write completions toward a function: its port is out of reset and the function exists (R62). -/
def State.reachable (s : State) (fid : Nat) : Bool := s.fnExists fid && !s.portInReset (portOf fid)

/-- The packet ends: it leaves the packets and its context, if it runs in one, is free. -/
def State.endPacket (s : State) (id : Nat) : State :=
  let s1 := match s.packet? id with
    | some { state := .running c, .. } => s.freeCtx c
    | _ => s
  let s2 := s1.setPackets (s1.qs.packets.filter fun p => p.id != id)
  match s.packet? id with
  | some p => if p.opc = 0x30 ∨ p.opc = 0x32 then { s2 with mem := s2.mem.dismissed id } else s2
  | none => s2

/-- Completion `c` goes before `d`: both record crossings of one FCLK cycle on one queue, and `c` is of the lower
session (R28). -/
def Completion.goesBefore (c d : Completion) : Bool :=
  c.crossedAt.isSome && c.crossedAt == d.crossedAt && c.cq == d.cq && decide (c.session < d.session)

/-- A completion takes its place among those that are held: last, but for R28's order within one cycle. -/
def holdCompletion (c : Completion) : List Completion → List Completion
  | [] => [c]
  | d :: r => if c.goesBefore d then c :: d :: r else d :: holdCompletion c r

/-- A completion of a packet is produced (R67): it waits for its queue in order (R72). REASON and the value
words follow R69, R77 and R84. The packet itself stays, as a DEC_BURST's does between pictures. -/
def State.produceAt (s : State) (p : Packet) (cq status reason time : Nat) (vals : List Word) (crossedAt : Option Nat) :
    State :=
  if s.reachable p.fid && !p.mute then
    let c : Completion :=
      { cq, status, tag := p.tag, session := if s.namesSession p.opc then p.sessField else 0, reason, time,
        vals := [wd vals 0, wd vals 1, wd vals 2, wd vals 3], noIrq := p.noIrq && decide (status ≤ 3), crossedAt }
    { s with qs := { s.qs with held := holdCompletion c s.qs.held } }
  else s

/-- A completion of a packet that made no crossing. -/
def State.produce (s : State) (p : Packet) (cq status reason time : Nat) (vals : List Word) : State :=
  s.produceAt p cq status reason time vals none

/-- The packet completes with value words and ends. -/
def State.complete (s : State) (p : Packet) (status : Nat) (vals : List Word) : State :=
  (s.produce p p.cq status 0 s.now vals).endPacket p.id

/-- The packet completes DONE. -/
def State.done (s : State) (p : Packet) (vals : List Word) : State := s.complete p 0 vals

/-- The packet is refused: V1 names the word at fault (R77). -/
def State.refuse (s : State) (p : Packet) (r : Refuse) : State :=
  (s.produce p p.cq r.status r.reason s.now [0, loW r.v1, 0, 0]).endPacket p.id

/-- BAD_PARAM naming word `v1`. -/
def badParam (reason v1 : Nat) : Refuse := ⟨0x15, reason, v1⟩

/-- The packet completes ABORTED. -/
def State.abort (s : State) (p : Packet) : State :=
  (s.produce p p.cq 0x20 0 s.now [0, 0, 0, 0]).endPacket p.id

/-- The first refusal of a list of checks made in order (R78). -/
def firstRefusal (cs : List (Option Refuse)) : Option Refuse := (cs.find? Option.isSome).join

/-- A check: the refusal where the condition fails. -/
def need (ok : Bool) (r : Refuse) : Option Refuse := if ok then none else some r

-- Sessions ------------------------------------------------------------------------------------------

/-- A Session Table entry. -/
def State.session (s : State) (i : Nat) : Session := s.sess.get i Session.reset

/-- The state with a Session Table entry replaced. -/
def State.setSession (s : State) (i : Nat) (x : Session) : State := { s with sess := s.sess.put i x }

/-- Field of configuration word `w`. -/
def Session.f (x : Session) (w lo len : Nat) : Nat := fld (wd x.cfg w) lo len
def Session.isProtected (x : Session) : Bool := bit (wd x.cfg 0) 30
def Session.kind (x : Session) : Nat := x.f 0 28 2
def Session.codec (x : Session) : Nat := x.f 0 24 4
def Session.profile (x : Session) : Nat := x.f 0 16 8
def Session.level (x : Session) : Nat := x.f 0 8 8
def Session.tier (x : Session) : Nat := x.f 0 7 1
def Session.width (x : Session) : Nat := x.f 1 16 16
def Session.height (x : Session) : Nat := x.f 1 0 16
def Session.bitDepth (x : Session) : Nat := x.f 2 28 4
def Session.chroma (x : Session) : Nat := x.f 2 26 2
def Session.latency (x : Session) : Nat := x.f 2 24 2
def Session.gang (x : Session) : Nat := x.f 2 20 4
def Session.lookahead (x : Session) : Nat := x.f 2 14 6
def Session.drop (x : Session) : Bool := bit (wd x.cfg 2) 13
def Session.bframes (x : Session) : Nat := x.f 2 9 4
def Session.inflight (x : Session) : Nat := x.f 2 6 3
def Session.fpsNum (x : Session) : Nat := x.f 3 16 16
def Session.fpsDen (x : Session) : Nat := x.f 3 0 16
def Session.weight (x : Session) : Nat := x.f 4 24 8
def Session.prio (x : Session) : Nat := x.f 4 21 3
def Session.intraPeriod (x : Session) : Nat := x.f 4 0 16
def Session.dlBudget (x : Session) : Nat := (wd x.cfg 5).toNat
def Session.rcMode (x : Session) : Nat := x.f 6 28 4
def Session.qpMin (x : Session) : Nat := x.f 6 20 8
def Session.qpMax (x : Session) : Nat := x.f 6 12 8
def Session.qpInit (x : Session) : Nat := x.f 6 4 8
def Session.targetKbps (x : Session) : Nat := (wd x.cfg 7).toNat
def Session.peakKbps (x : Session) : Nat := (wd x.cfg 8).toNat
def Session.bufferBits (x : Session) : Nat := (wd x.cfg 9).toNat
/-- TOOL_CTRL[k]. -/
def Session.tool (x : Session) (k : Nat) : Word := wd x.cfg (10 + k)
/-- INPUT[k]. -/
def Session.input (x : Session) (k : Nat) : Word := wd x.cfg (16 + k)
def Session.refBudget (x : Session) : Nat := x.f 20 0 8
def Session.isEnc (x : Session) : Bool := x.kind == 1
def Session.isDec (x : Session) : Bool := x.kind == 2
def Session.isVvc (x : Session) : Bool := x.codec == 2
/-- u of R171: 4 for AV1 and 1 otherwise (R143). -/
def Session.qpUnit (x : Session) : Nat := if x.codec = 0 then 4 else 1

/-- HOME_MASK of Table 05-1 (R99). -/
def Session.homeMask (x : Session) : Nat :=
  match x.home with
  | some (lg, i) => (2 ^ (2 ^ lg) - 1) * 2 ^ (2 ^ lg * i)
  | none => 0

/-- The 64 words of a Session Table entry (Table 05-1). -/
def Session.words (x : Session) : List Word :=
  let w0 := (wd x.cfg 0 &&& 0x7FFFFF80) ||| at_ 31 (b2n x.en) ||| at_ 0 x.owner
  (w0 :: x.cfg.drop 1) ++
    [loW x.expTicks, loW x.spanTicks, loW x.demand, at_ 31 (b2n x.overcommitted) ||| loW x.homeMask,
     loW x.lastReason] ++ zeros 27

/-- The steps a session codes: the step table of an encode session, or one step of the session's own size (R141, log 70). Step 0 takes
its rate and QP fields from the Session Table (R138). -/
def Session.steps (x : Session) : List StepDesc :=
  let own : StepDesc :=
    { dispW := x.width, dispH := x.height, target := x.targetKbps, peak := x.peakKbps, bufBits := x.bufferBits,
      qpMin := x.qpMin, qpMax := x.qpMax, qpInit := x.qpInit }
  match (if x.isDec then [] else x.stair) with
  | [] => [own]
  | d :: r => { own with dispW := d.dispW, dispH := d.dispH } :: r

/-- Rounded up to a multiple of 8 (R138). -/
def up8 (n : Nat) : Nat := (n + 7) / 8 * 8

/-- Coded width and height of a step. -/
def StepDesc.codedW (d : StepDesc) : Nat := up8 d.dispW
def StepDesc.codedH (d : StepDesc) : Nat := up8 d.dispH

/-- Coded luma samples of a step. -/
def StepDesc.samples (d : StepDesc) : Nat := d.codedW * d.codedH

/-- The current snapshot record of a step (Table 02-2). -/
def Session.snapRec (x : Session) (k : Nat) : List Word := x.snap.get k (zeros 16)

/-- The session in the cycle of one of its crossings: its records and visible sets before the cycle's first are kept (R25, R202). -/
def Session.keepBank (x : Session) (cyc : Nat) : Session :=
  let now : Session := { x with before := some { cyc, snap := x.snap, stat := x.stat, vis := x.vis } }
  match x.before with
  | some b => if b.cyc = cyc then x else now
  | none => now

/-- The session as a read or a grant of this cycle sees it: one of a crossing's cycle sees nothing of the crossing's records and
visible sets (R25, R202). -/
def Session.shown (x : Session) (cyc : Nat) : Session :=
  match x.before with
  | some b => if b.cyc = cyc then { x with snap := b.snap, stat := b.stat, vis := b.vis } else x
  | none => x

/-- The frames of a session, oldest first. -/
def State.framesOf (s : State) (i : Nat) : List Frame := s.span.frames.filter fun f => f.sess == i

/-- The frame with this number. -/
def State.frame? (s : State) (id : Nat) : Option Frame := s.span.frames.find? fun f => f.id == id

/-- The state with the frames replaced. -/
def State.setFrames (s : State) (fs : List Frame) : State := { s with span := { s.span with frames := fs } }

/-- The state with one frame replaced. -/
def State.setFrame (s : State) (f : Frame) : State :=
  s.setFrames (s.span.frames.map fun g => if g.id == f.id then f else g)

/-- The packet a frame belongs to: a frame's number is its packet's fetch number × 4,096 plus the unit of a
burst, 0 for any other frame. -/
def Frame.packet (f : Frame) : Nat := f.id / 4096

end Sys2Proof.Machine
end

