-- ==== Sys2Proof/Machine/Levels.lean ====
section
/-! DEFINITION. What profiles and levels allow: Tables 07-1 and 10-1 from the spec, and the level limits of
the video coding standards, which the spec names and does not print (PRESUMED from the standards, log 6). -/

namespace Sys2Proof.Machine

/-- A row of Table 07-1 or Table 10-1. -/
structure ProfileRow where
  codec : Nat
  profile : Nat
  depths : List Nat
  chromas : List Nat
  tiers : List Nat
deriving DecidableEq, Repr

/-- Table 07-1: encode profile indices (R142). -/
def encodeProfiles : List ProfileRow :=
  [⟨0, 0, [8, 10], [0], [0]⟩, ⟨0, 1, [8, 10], [0, 2], [0]⟩, ⟨1, 0, [8], [0], [0, 1]⟩,
   ⟨1, 1, [8, 10], [0], [0, 1]⟩, ⟨1, 2, [8, 10], [0, 2], [0, 1]⟩, ⟨2, 0, [8, 10], [0], [0]⟩,
   ⟨3, 0, [8], [0], [0]⟩, ⟨3, 1, [8, 10], [0], [0]⟩]

/-- Table 10-1: decode profile indices (R213). -/
def decodeProfiles : List ProfileRow :=
  [⟨0, 0, [8, 10], [0], [0]⟩, ⟨0, 1, [8, 10], [0, 2], [0]⟩, ⟨1, 0, [8], [0], [0, 1]⟩,
   ⟨1, 1, [8, 10], [0], [0, 1]⟩, ⟨1, 2, [8, 10], [0, 1], [0, 1]⟩, ⟨1, 3, [8, 10], [0, 1, 2], [0, 1]⟩,
   ⟨2, 0, [8, 10], [0], [0]⟩, ⟨2, 1, [8, 10], [0, 1, 2], [0]⟩] ++
  [⟨3, 0, [8], [0], [0]⟩, ⟨3, 1, [8], [0], [0]⟩, ⟨3, 2, [8], [0], [0]⟩, ⟨3, 3, [8, 10], [0], [0]⟩,
   ⟨3, 4, [8, 10], [0, 1], [0]⟩, ⟨4, 0, [8], [0], [0]⟩, ⟨4, 2, [10], [0], [0]⟩]

/-- The row a session's CODEC and PROFILE select. -/
def Session.profileRow (x : Session) : Option ProfileRow :=
  (if x.isEnc then encodeProfiles else decodeProfiles).find? fun r => r.codec == x.codec && r.profile == x.profile

/-- Limits of one level: largest picture, its largest width and height, and the largest rate, in luma samples,
or in macroblocks for AVC; and AVC's MaxDpbMbs. -/
structure LevelRow where
  level : Nat
  size : Nat
  rate : Nat
  maxW : Nat
  maxH : Nat
  dpb : Nat
deriving DecidableEq, Repr

/-- HEVC and VVC: MaxLumaPs and MaxLumaSr; a side squared is at most 8 × MaxLumaPs. -/
def hevcLevels : List LevelRow :=
  [⟨10, 36864, 552960, 543, 543, 0⟩, ⟨20, 122880, 3686400, 991, 991, 0⟩, ⟨21, 245760, 7372800, 1402, 1402, 0⟩,
   ⟨30, 552960, 16588800, 2103, 2103, 0⟩, ⟨31, 983040, 33177600, 2804, 2804, 0⟩,
   ⟨40, 2228224, 66846720, 4222, 4222, 0⟩, ⟨41, 2228224, 133693440, 4222, 4222, 0⟩,
   ⟨50, 8912896, 267386880, 8444, 8444, 0⟩, ⟨51, 8912896, 534773760, 8444, 8444, 0⟩,
   ⟨52, 8912896, 1069547520, 8444, 8444, 0⟩, ⟨60, 35651584, 1069547520, 16888, 16888, 0⟩,
   ⟨61, 35651584, 2139095040, 16888, 16888, 0⟩, ⟨62, 35651584, 4278190080, 16888, 16888, 0⟩]

/-- AVC: MaxFS, MaxMBPS and MaxDpbMbs in macroblocks; a side squared is at most 8 × MaxFS. -/
def avcLevels : List LevelRow :=
  [⟨10, 99, 1485, 28, 28, 396⟩, ⟨11, 396, 3000, 56, 56, 900⟩, ⟨12, 396, 6000, 56, 56, 2376⟩,
   ⟨13, 396, 11880, 56, 56, 2376⟩, ⟨20, 396, 11880, 56, 56, 2376⟩, ⟨21, 792, 19800, 79, 79, 4752⟩,
   ⟨22, 1620, 20250, 113, 113, 8100⟩, ⟨30, 1620, 40500, 113, 113, 8100⟩, ⟨31, 3600, 108000, 169, 169, 18000⟩,
   ⟨32, 5120, 216000, 202, 202, 20480⟩] ++
  [⟨40, 8192, 245760, 256, 256, 32768⟩, ⟨41, 8192, 245760, 256, 256, 32768⟩, ⟨42, 8704, 522240, 263, 263, 34816⟩,
   ⟨50, 22080, 589824, 420, 420, 110400⟩, ⟨51, 36864, 983040, 543, 543, 184320⟩,
   ⟨52, 36864, 2073600, 543, 543, 184320⟩, ⟨60, 139264, 4177920, 1055, 1055, 696320⟩,
   ⟨61, 139264, 8355840, 1055, 1055, 696320⟩, ⟨62, 139264, 16711680, 1055, 1055, 696320⟩]

/-- AV1: MaxPicSize, MaxDisplayRate, MaxHSize and MaxVSize. -/
def av1Levels : List LevelRow :=
  [⟨20, 147456, 4423680, 2048, 1152, 0⟩, ⟨21, 278784, 8363520, 2816, 1584, 0⟩,
   ⟨30, 665856, 19975680, 4352, 2448, 0⟩, ⟨31, 1065024, 31950720, 5504, 3096, 0⟩,
   ⟨40, 2359296, 70778880, 6144, 3456, 0⟩, ⟨41, 2359296, 141557760, 6144, 3456, 0⟩,
   ⟨50, 8912896, 267386880, 8192, 4352, 0⟩, ⟨51, 8912896, 534773760, 8192, 4352, 0⟩,
   ⟨52, 8912896, 1069547520, 8192, 4352, 0⟩, ⟨53, 8912896, 1069547520, 8192, 4352, 0⟩,
   ⟨60, 35651584, 1069547520, 16384, 8704, 0⟩, ⟨61, 35651584, 2139095040, 16384, 8704, 0⟩,
   ⟨62, 35651584, 4278190080, 16384, 8704, 0⟩, ⟨63, 35651584, 4278190080, 16384, 8704, 0⟩]

/-- VP9: largest picture, sample rate and breadth. -/
def vp9Levels : List LevelRow :=
  [⟨10, 36864, 829440, 512, 512, 0⟩, ⟨11, 73728, 2764800, 768, 768, 0⟩, ⟨20, 122880, 4608000, 960, 960, 0⟩,
   ⟨21, 245760, 9216000, 1344, 1344, 0⟩, ⟨30, 552960, 20736000, 2048, 2048, 0⟩,
   ⟨31, 983040, 36864000, 2752, 2752, 0⟩, ⟨40, 2228224, 83558400, 4160, 4160, 0⟩,
   ⟨41, 2228224, 160432128, 4160, 4160, 0⟩, ⟨50, 8912896, 311951360, 8384, 8384, 0⟩,
   ⟨51, 8912896, 588251136, 8384, 8384, 0⟩, ⟨52, 8912896, 1176502272, 8384, 8384, 0⟩,
   ⟨60, 35651584, 1176502272, 16832, 16832, 0⟩, ⟨61, 35651584, 2353004544, 16832, 16832, 0⟩,
   ⟨62, 35651584, 4706009088, 16832, 16832, 0⟩]

/-- The levels of a codec. -/
def levelsOf (codec : Nat) : List LevelRow :=
  match codec with
  | 0 => av1Levels
  | 1 => hevcLevels
  | 2 => hevcLevels
  | 3 => avcLevels
  | _ => vp9Levels

/-- The limits of the session's level. -/
def Session.levelRow (x : Session) : Option LevelRow := (levelsOf x.codec).find? fun r => r.level == x.level

/-- Check 4's last part: picture size and sample rate within the level. A zero frame rate is judged by
check 8. -/
def Session.levelFits (x : Session) : Bool :=
  match x.levelRow with
  | none => false
  | some r =>
    let avc := x.codec == 3
    let w := if avc then ceilDiv x.width 16 else x.width
    let h := if avc then ceilDiv x.height 16 else x.height
    decide (w * h ≤ r.size) && decide (w ≤ r.maxW) && decide (h ≤ r.maxH) &&
      (x.fpsDen == 0 || decide (w * h * x.fpsNum ≤ r.rate * x.fpsDen))

/-- The level's limit on references at the session's size (R199): maximum DPB size minus 1 for HEVC and
VVC, MaxDpbFrames for AVC, none for AV1 and VP9. -/
def Session.levelRefs (x : Session) : Nat :=
  match x.levelRow with
  | none => 0
  | some r =>
    let ps := x.width * x.height
    if x.codec = 1 ∨ x.codec = 2 then
      let b := if x.codec = 1 then 6 else 8
      (if ps ≤ r.size / 4 then min (4 * b) 16 else if ps ≤ r.size / 2 then min (2 * b) 16
       else if x.codec = 1 then (if 4 * ps ≤ 3 * r.size then min (4 * b / 3) 16 else b)
       else if 3 * ps ≤ 2 * r.size then min (3 * b / 2) 16 else b) - 1
    else if x.codec = 3 then min (r.dpb / (ceilDiv x.width 16 * ceilDiv x.height 16)) 16
    else 16

/-- The codec's limit on references (R199). -/
def Session.codecRefs (x : Session) : Nat :=
  match x.codec with
  | 0 => if x.isEnc then 7 else 8
  | 1 => 15
  | 2 => 15
  | 3 => 16
  | _ => 8

/-- SEARCH_REFS of TOOL_CTRL[0]; 0 means one (Table 07-7). -/
def Session.searchRefs (x : Session) : Nat := max 1 (fld (x.tool 0) 22 2)

/-- Smallest and largest REF_BUDGET (R199). -/
def Session.refMin (x : Session) : Nat :=
  if !x.isEnc then 1 else if x.bframes = 0 then x.searchRefs else 2 + ceilLog2 (x.bframes + 1)
def Session.refMax (x : Session) : Nat := min x.codecRefs x.levelRefs

/-- The effective REF_BUDGET: 0 selects the minimum for encode and the maximum for decode (R199). -/
def Session.refs (x : Session) : Nat :=
  if x.refBudget ≠ 0 then x.refBudget else if x.isEnc then x.refMin else x.refMax

/-- REF_BUDGET in its range (R199). -/
def Session.refsOk (x : Session) : Bool := decide (x.refMin ≤ x.refs) && decide (x.refs ≤ x.refMax)

end Sys2Proof.Machine
end

