-- ==== Sys2Proof/Machine/Geometry.lean ====
section
/-! DEFINITION. How a picture is cut into row units and shared by the spans of a gang (R144, R152, R153),
what it costs (R100, R101, R165), and what memory it needs (R123, R194–R200). -/

namespace Sys2Proof.Machine

/-- Row-unit columns and rows of a step. -/
def StepDesc.cols (d : StepDesc) : Nat := ceilDiv d.codedW 64
def StepDesc.rows (d : StepDesc) : Nat := ceilDiv d.codedH 64

/-- Part `j` of `n` units in `k` near-equal parts, the larger first (R152): its size and its start. -/
def nearSize (k n j : Nat) : Nat := n / k + (if j < n % k then 1 else 0)
def nearStart (k n j : Nat) : Nat := n / k * j + min j (n % k)

/-- How a step is cut for a gang (Table 07-4). -/
inductive Split where
  | whole
  | columns
  | rows
  | slices
deriving DecidableEq, Repr

/-- The split of a step among `g` spans, none where it cannot be split (Table 07-4). -/
def stepSplit (codec : Nat) (d : StepDesc) (g : Nat) : Option Split :=
  if g ≤ 1 then some .whole
  else match codec with
    | 1 => if 4 * g ≤ d.cols then some .columns else if g ≤ d.cols * d.rows then some .slices else none
    | 3 => if g ≤ ceilDiv d.codedW 16 * ceilDiv d.codedH 16 then some .slices else none
    | _ => if g ≤ d.cols then some .columns else if g ≤ d.rows then some .rows else none

/-- How many spans code a step: the gang, or the largest smaller gang a lower step allows (R153). -/
def stepGang (codec : Nat) (d : StepDesc) (g : Nat) : Nat :=
  if (stepSplit codec d g).isSome then g
  else if g = 4 ∧ (stepSplit codec d 2).isSome then 2 else 1

/-- One row of a span's share: the picture row, its row units and its luma samples. -/
structure RowShare where
  row : Nat
  units : Nat
  samples : Nat
deriving DecidableEq, Repr

/-- Samples of unit columns [c0, c0 + n) on a row of a picture `w` wide. -/
def colSamples (w c0 n : Nat) : Nat := min w (64 * (c0 + n)) - min w (64 * c0)

/-- Lines of picture row `r`. -/
def rowLines (h r : Nat) : Nat := min 64 (h - 64 * r)

/-- AV1 tile columns: g, doubled until every tile is at most 4,096 wide (Table 07-4). -/
def tileCols (d : StepDesc) (g : Nat) : Nat :=
  if 64 * nearSize g d.cols 0 ≤ 4096 then g else if 64 * nearSize (2 * g) d.cols 0 ≤ 4096 then 2 * g else 4 * g

/-- Unit columns of span `j` of a column split: its start and count. -/
def spanCols (codec : Nat) (d : StepDesc) (g j : Nat) : Nat × Nat :=
  if codec = 0 then
    let t := tileCols d g
    let k := t / g
    (nearStart t d.cols (k * j), nearStart t d.cols (k * (j + 1)) - nearStart t d.cols (k * j))
  else (nearStart g d.cols j, nearSize g d.cols j)

/-- A raster run [a, b) of cells, `w` cells to a line and `k` lines to a row: cells of row `r` on line `l`. -/
def runOnLine (w a b l : Nat) : Nat × Nat :=
  let s := max a (w * l)
  let e := min b (w * (l + 1))
  (s - w * l, e - s)

/-- The rows of span `j`'s share of a step coded by `g` spans (R152, R182). -/
def shareRows (codec : Nat) (d : StepDesc) (g j : Nat) : List RowShare :=
  let w := d.codedW
  let h := d.codedH
  match (stepSplit codec d g).getD .whole with
  | .whole => (List.range d.rows).map fun r => ⟨r, d.cols, w * rowLines h r⟩
  | .columns =>
    let (c0, n) := spanCols codec d g j
    (List.range d.rows).map fun r => ⟨r, n, colSamples w c0 n * rowLines h r⟩
  | .rows =>
    (List.range (nearSize g d.rows j)).map fun i =>
      let r := nearStart g d.rows j + i
      ⟨r, d.cols, w * rowLines h r⟩
  | .slices =>
    if codec = 1 then
      let a := nearStart g (d.cols * d.rows) j
      let b := a + nearSize g (d.cols * d.rows) j
      ((List.range d.rows).map fun r =>
        let (c0, n) := runOnLine d.cols a b r
        ⟨r, n, colSamples w c0 n * rowLines h r⟩).filter fun s => s.units != 0
    else
      let wm := ceilDiv w 16
      let hm := ceilDiv h 16
      let a := nearStart g (wm * hm) j
      let b := a + nearSize g (wm * hm) j
      ((List.range d.rows).map fun r =>
        let lines := (List.range 4).map fun i => 4 * r + i
        let mbs := (lines.map fun l => if l < hm then (runOnLine wm a b l).2 else 0).foldl (· + ·) 0
        let smp := (lines.map fun l =>
          if l < hm then
            let (c0, n) := runOnLine wm a b l
            (min w (16 * (c0 + n)) - min w (16 * c0)) * min 16 (h - 16 * l)
          else 0).foldl (· + ·) 0
        let full := mbs = wm * (min hm (4 * r + 4) - 4 * r)
        ⟨r, if full then d.cols else ceilDiv mbs 16, smp⟩).filter fun s => s.units != 0

/-- Row units of a step over its gang (R182). -/
def stepUnits (codec : Nat) (d : StepDesc) (g : Nat) : Nat :=
  ((List.range g).flatMap fun j => (shareRows codec d g j).map (·.units)).foldl (· + ·) 0

-- Cost and time --------------------------------------------------------------------------------------

/-- Coded luma samples of steps 1 and up. -/
def Session.lowSamples (x : Session) : Nat := ((x.steps.drop 1).map StepDesc.samples).foldl (· + ·) 0

/-- S_eff: the cost-weighted luma samples of a frame (R100, R165). -/
def Session.sEff (x : Session) : Nat :=
  let k := if x.isVvc then 2 else 1
  if x.isEnc then
    k * ((x.steps.map StepDesc.samples).headD 0) + k * ceilDiv (2 * x.lowSamples) 5
  else k * (x.width * x.height)

/-- The rate factor of a CCLK step in quarters (R15). -/
def stepQuarters (cclk : Nat) : Nat := if cclk = 0 then 4 else if cclk = 1 then 3 else 2

/-- C: gang time per frame in ticks at a CCLK step on `g` spans (R101). -/
def gangTime (enc : Bool) (cclk g seff : Nat) : Nat :=
  ceilDiv (4 * seff) ((if enc then 10 else 20) * stepQuarters cclk * g)

/-- The session's gang size: 1 for decode. -/
def Session.gangSize (x : Session) : Nat := if x.isEnc then max 1 x.gang else 1

/-- log2 of the gang size. -/
def Session.gangLog (x : Session) : Nat := if x.gangSize = 4 then 2 else if x.gangSize = 2 then 1 else 0

/-- C of the session (R101). -/
def Session.c (x : Session) (cclk : Nat) : Nat := gangTime x.isEnc cclk x.gangSize x.sEff

/-- TAIL: 20,000 ticks for encode, 0 for decode (R101). -/
def Session.tail (x : Session) : Nat := if x.isEnc then 20000 else 0

/-- P: the frame period in ticks (R98). -/
def Session.period (x : Session) : Nat := ceilDiv (100000000 * x.fpsDen) x.fpsNum

/-- The term of Table 05-3. -/
def Session.modeTerm (x : Session) : Nat :=
  if x.latency = 1 then (4 + x.bframes) * x.period
  else if x.latency = 2 then (x.lookahead + x.bframes) * x.period else 0

/-- E: the expected time per frame (R101). -/
def Session.e (x : Session) (cclk : Nat) : Nat :=
  4000 + x.c cclk + x.tail + (if x.isEnc then x.modeTerm else 0)

/-- A per-frame count as ksample/s, rounded up. -/
def Session.perSecond (x : Session) (n : Nat) : Nat := ceilDiv (n * x.fpsNum) (x.fpsDen * 1000)

/-- D: the reserved rate in ksample/s (R100). -/
def Session.d (x : Session) : Nat := x.perSecond x.sEff

-- Input ------------------------------------------------------------------------------------------------

/-- Fields of INPUT[0] (Table 06-3). -/
def Session.inFormat (x : Session) : Nat := fld (x.input 0) 28 4
def Session.inMatrix (x : Session) : Nat := fld (x.input 0) 26 2
def Session.inTransfer (x : Session) : Nat := fld (x.input 0) 24 2
def Session.inFull (x : Session) : Bool := bit (x.input 0) 23
def Session.rotate (x : Session) : Nat := fld (x.input 0) 20 2
def Session.mirror (x : Session) : Bool := bit (x.input 0) 19
def Session.srcW (x : Session) : Nat := fld (x.input 1) 16 16
def Session.srcH (x : Session) : Nat := fld (x.input 1) 0 16
def Session.cropX (x : Session) : Nat := fld (x.input 2) 16 16
def Session.cropY (x : Session) : Nat := fld (x.input 2) 0 16

/-- The crop selects the whole input: CROP_W and CROP_H are 0. -/
def Session.cropWhole (x : Session) : Bool := x.input 3 == 0

/-- Crop size; the whole input when both fields are 0 (Table 06-3). -/
def Session.cropW (x : Session) : Nat := if x.cropWhole then x.srcW else fld (x.input 3) 16 16
def Session.cropH (x : Session) : Nat := if x.cropWhole then x.srcH else fld (x.input 3) 0 16

/-- Rotated crop size W′ × H′ (R130). -/
def Session.rotW (x : Session) : Nat := if x.rotate % 2 = 0 then x.cropW else x.cropH
def Session.rotH (x : Session) : Nat := if x.rotate % 2 = 0 then x.cropH else x.cropW

/-- Bytes per luma sample of an input row and planes in halves of the luma plane (Table 06-2, R126). -/
def formatRowBytes (format : Nat) : Nat := if format ≤ 3 then 4 else if format = 4 then 1 else 2
def formatHalves (format : Nat) : Nat := if format ≤ 3 then 2 else 3

/-- Size of the analysis copy (R122). -/
def Session.anaW (x : Session) : Nat := ceilDiv ((x.steps.map StepDesc.codedW).headD 0) 4
def Session.anaH (x : Session) : Nat := ceilDiv ((x.steps.map StepDesc.codedH).headD 0) 4
def Session.anaSamples (x : Session) : Nat := x.anaW * x.anaH

/-- A ratio display / source within [1/16, 2] (R131). -/
def ratioOk (disp src : Nat) : Bool := decide (src ≤ 16 * disp) && decide (disp ≤ 2 * src)

-- Memory -------------------------------------------------------------------------------------------------

/-- Raw stripes per storage unit (Table 09-1). -/
def rawStripes (depth chroma : Nat) : Nat :=
  if depth = 8 then (if chroma = 0 then 6 else if chroma = 1 then 8 else 12)
  else (if chroma = 0 then 8 else if chroma = 1 then 10 else 15)

/-- P: bytes of one Gallery slot (R200). -/
def slotBytes (depth chroma w h : Nat) (quarter : Bool) : Nat :=
  let u := ceilDiv w 64 * ceilDiv h 64
  u * rawStripes depth chroma * 1024 + ceilDiv u 2048 * 1024 +
    (if quarter then ceilDiv (ceilDiv w 4) 1024 * 1024 * ceilDiv h 4 else 0)

/-- N_SLOT of a step with a number of frames in flight (R200, R208). -/
def Session.nSlot (x : Session) (flight : Nat) : Nat := x.refs + 2 * flight - 1

/-- Slot sizes of the session's steps. -/
def Session.slotSizes (x : Session) : List Nat :=
  (x.steps.zipIdx).map fun (d, k) => slotBytes x.bitDepth x.chroma d.codedW d.codedH (x.isEnc && k == 0)

/-- The Gallery reservation (R200). -/
def Session.galleryBytes (x : Session) : Nat :=
  (x.slotSizes.map fun p => x.nSlot x.inflight * p).foldl (· + ·) 0

/-- The copy-set reservation (R123); decode sessions have none. -/
def Session.copyBytes (x : Session) : Nat :=
  if x.isEnc then
    let f := if x.chroma = 2 then 6 else if x.chroma = 1 then 4 else 3
    let b := if x.bitDepth = 10 then 2 else 1
    (x.inflight + x.lookahead + x.bframes + 1) *
      ((x.steps.map StepDesc.samples).foldl (· + ·) 0 * f * b / 2 + x.anaSamples)
  else 0

/-- Nominal bits per frame at a rate: RC_N on TARGET_KBPS, RC_NP on PEAK_KBPS (Table 08-3). -/
def Session.frameBits (x : Session) (kbps : Nat) : Nat := roundDiv (kbps * 1000 * x.fpsDen) x.fpsNum

end Sys2Proof.Machine
end

