-- ==== Sys2Proof/Machine/Samples.lean ====
section
/-! DEFINITION. The samples of a conditioned picture (R120–R131): unpacking the input formats, crop, mirror and rotation,
colour and range conversion, halving, polyphase scaling, rounding and padding. Values stay exact fractions until the one
rounding of stage 7. -/

namespace Sys2Proof.Machine

-- Planes -------------------------------------------------------------------------------------------------------------

/-- One component as the stages hand it on: `val x y / den` is the sample of column `x` on line `y`. In luma samples its
columns lie `sx` apart from `ox` / 64 on, and its lines `sy` apart from `oy` / 64 on, where a luma sample spans one and its
centre lies at 32 / 64 (R129, R136). -/
structure Plane where
  w : Nat
  h : Nat
  den : Nat
  sx : Nat
  sy : Nat
  ox : Nat
  oy : Nat
  val : Nat → Nat → Int

/-- A sample, the nearest one of the edge where the place lies outside (R131: at the edges samples repeat). -/
def Plane.get (p : Plane) (x y : Int) : Int :=
  p.val (clampI 0 (p.w - 1 : Nat) x).toNat (clampI 0 (p.h - 1 : Nat) y).toNat

-- Stages 1 to 3: reading, crop, mirror and rotation ---------------------------------------------------------------------

/-- Bits of an input sample (Table 06-2). -/
def formatDepth (format : Nat) : Nat := if format = 2 ∨ format = 3 ∨ format = 5 then 10 else 8

/-- The input is RGB (Table 06-2). -/
def formatRgb (format : Nat) : Bool := decide (format ≤ 3)

/-- Component `c` of the input pixel at column `x`, line `y`, with the picture at `base`: red, green and blue of an RGB
format, and Y, Cb and Cr of NV12 and P010, whose chroma is named by its own column and line (Table 06-2). -/
def State.inputSample (s : State) (format base pitch srcH c x y : Nat) : Nat :=
  let byte (a : Nat) : Nat := (s.mem.read a).toNat
  let half (a : Nat) : Nat := (byte a + 256 * byte (a + 1)) / 64
  let chroma := base + pitch * (srcH + y)
  match format with
  | 0 => byte (base + pitch * y + 4 * x + (2 - c))
  | 1 => byte (base + pitch * y + 4 * x + c)
  | 2 => fld (s.loadW (base + pitch * y + 4 * x)) (10 * c) 10
  | 3 => fld (s.loadW (base + pitch * y + 4 * x)) (10 * (2 - c)) 10
  | 4 => if c = 0 then byte (base + pitch * y + x) else byte (chroma + 2 * x + (c - 1))
  | _ => if c = 0 then half (base + pitch * y + 2 * x) else half (chroma + 4 * x + 2 * (c - 1))

/-- The place in the crop rectangle, `w` × `h`, that the sample at (`x`, `y`) of the rotated picture comes from (R130). -/
def turnBack (rotate : Nat) (mirror : Bool) (w h x y : Nat) : Nat × Nat :=
  let (u, v) :=
    match rotate with
    | 0 => (x, y)
    | 1 => (y, h - 1 - x)
    | 2 => (w - 1 - x, h - 1 - y)
    | _ => (w - 1 - y, x)
  (if mirror then w - 1 - u else u, v)

/-- Offset of a component's samples counted from the other edge. -/
def flipOff (spacing off : Nat) : Nat := 64 * spacing - off

/-- A cropped plane mirrored and then rotated (R130); its samples keep their places in the picture. -/
def Plane.turn (p : Plane) (rotate : Nat) (mirror : Bool) : Plane :=
  let ox := if mirror then flipOff p.sx p.ox else p.ox
  let v (x y : Nat) : Int := let (a, b) := turnBack rotate mirror p.w p.h x y; p.val a b
  match rotate with
  | 0 => { p with ox, val := v }
  | 1 => { p with w := p.h, h := p.w, sx := p.sy, sy := p.sx, ox := flipOff p.sy p.oy, oy := ox, val := v }
  | 2 => { p with ox := flipOff p.sx ox, oy := flipOff p.sy p.oy, val := v }
  | _ => { p with w := p.h, h := p.w, sx := p.sy, sy := p.sx, ox := p.oy, oy := flipOff p.sx ox, val := v }

/-- Component `c` of the crop rectangle of a frame's input as it is read, mirrored and rotated. -/
def State.inputPlane (s : State) (x : Session) (base pitch c : Nat) : Plane :=
  let sub := !formatRgb x.inFormat && c != 0
  let k := if sub then 2 else 1
  let p : Plane :=
    { w := x.cropW / k, h := x.cropH / k, den := 1, sx := k, sy := k, ox := 32, oy := if sub then 64 else 32,
      val := fun u v => s.inputSample x.inFormat base pitch x.srcH c (x.cropX / k + u) (x.cropY / k + v) }
  p.turn x.rotate x.mirror

-- Stage 4: colour and range ---------------------------------------------------------------------------------------------

/-- Kr and Kb in units of 1/10,000 (R127). -/
def lumaWeights (matrix : Nat) : Nat × Nat := if matrix = 0 then (2126, 722) else (2627, 593)

/-- Black and span of luma, or middle and span of chroma, of a range at a depth (R127). -/
def rangeOf (full chroma : Bool) (depth : Nat) : Nat × Nat :=
  let k := 2 ^ (depth - 8)
  if full then (if chroma then (2 ^ (depth - 1), 2 ^ depth - 1) else (0, 2 ^ depth - 1))
  else if chroma then (128 * k, 224 * k) else (16 * k, 219 * k)

/-- Component `c` of YCbCr from the RGB components of one pixel, each of `top` at most, at the output's range: numerator and
denominator (R127). -/
def fromRgb (matrix top : Nat) (full : Bool) (depth c : Nat) (r g b : Int) : Int × Nat :=
  let (kr, kb) := lumaWeights matrix
  let y : Int := kr * r + (10000 - kr - kb : Nat) * g + kb * b
  let (low, range) := rangeOf full (c != 0) depth
  if c = 0 then (low * (10000 * top) + range * y, 10000 * top)
  else
    let k := if c = 1 then kb else kr
    let v := if c = 1 then b else r
    let den := 2 * top * (10000 - k)
    (low * den + range * (10000 * v - y), den)

/-- A YCbCr sample of the input's depth and range at the output's (R127, R129): shifted where the ranges agree, converted
between ranges where they differ. -/
def fromYcc (inFull outFull : Bool) (inDepth depth c : Nat) (v : Int) : Int × Nat :=
  if inFull = outFull then (v * 2 ^ depth, 2 ^ inDepth)
  else
    let (z0, r0) := rangeOf inFull (c != 0) inDepth
    let (z1, r1) := rangeOf outFull (c != 0) depth
    (z1 * r0 + r1 * (v - z0), r0)

/-- Component `c` of a frame's picture after stage 4, for samples of `depth` bits. -/
def State.colourPlane (s : State) (x : Session) (base pitch depth c : Nat) : Plane :=
  let d := formatDepth x.inFormat
  let full := bit (x.input 0) 22
  if formatRgb x.inFormat then
    let r := s.inputPlane x base pitch 0
    let g := s.inputPlane x base pitch 1
    let b := s.inputPlane x base pitch 2
    let v (u w : Nat) := fromRgb x.inMatrix (2 ^ d - 1) full depth c (r.val u w) (g.val u w) (b.val u w)
    { r with den := (v 0 0).2, val := fun u w => (v u w).1 }
  else
    let p := s.inputPlane x base pitch c
    { p with den := (fromYcc x.inFull full d depth c 0).2, val := fun u w => (fromYcc x.inFull full d depth c (p.val u w)).1 }

-- Stage 5: halving ------------------------------------------------------------------------------------------------------

/-- Halving stages of an axis: the smallest h with r × 2^h at least 1/2, for r = `out` / `inp` (R131). -/
def halvings (out inp : Nat) : Nat := ((List.range 4).find? fun h => decide (inp ≤ 2 * out * 2 ^ h)).getD 3

/-- Offset of the samples that a halving keeps: each lies midway between its two middle inputs. -/
def halfOff (spacing off : Nat) : Nat := 16 * spacing + off / 2

/-- One halving stage across: [1, 3, 3, 1] / 8, and every second sample is kept (R131). -/
def Plane.halveX (p : Plane) : Plane :=
  { p with
    w := ceilDiv p.w 2, den := 8 * p.den, ox := halfOff p.sx p.ox,
    val := fun x y => p.get (2 * x - 1) y + 3 * p.get (2 * x) y + 3 * p.get (2 * x + 1) y + p.get (2 * x + 2) y }

/-- One halving stage down. -/
def Plane.halveY (p : Plane) : Plane :=
  { p with
    h := ceilDiv p.h 2, den := 8 * p.den, oy := halfOff p.sy p.oy,
    val := fun x y => p.get x (2 * y - 1) + 3 * p.get x (2 * y) + 3 * p.get x (2 * y + 1) + p.get x (2 * y + 2) }

/-- `n` stages of one kind. -/
def Plane.repeat (f : Plane → Plane) (p : Plane) : Nat → Plane
  | 0 => p
  | n + 1 => Plane.repeat f (f p) n

-- Stage 6: polyphase scaling --------------------------------------------------------------------------------------------

/-- One in the fixed-point numbers of the kernels. -/
def kOne : Nat := 2 ^ 80

/-- π² in those numbers. -/
def piSquared : Nat := 11931619589859104168177190

/-- sin(πx) / (πx) at x² = `num` / `den`, by its power series with `n` terms left; `term` is the term of order `k`. -/
def sincFrom (num den : Nat) (k : Nat) (term acc : Int) : Nat → Int
  | 0 => acc
  | n + 1 =>
    let next := -(term * (piSquared * num : Nat)) / ((kOne * den * ((2 * k + 2) * (2 * k + 3)) : Nat) : Int)
    sincFrom num den (k + 1) next (acc + term) n

/-- sinc(a / b). -/
def sinc (a : Int) (b : Nat) : Int := sincFrom (a.natAbs ^ 2) (b ^ 2) 0 kOne 0 40

/-- The stretch s of a kernel (R131), as a fraction, for an axis whose output samples lie `num` / `den` input samples
apart. -/
def stretchOf (filter num den : Nat) : Nat × Nat :=
  let (n, d) := if den < num then (num, den) else (1, 1)
  match filter with
  | 1 => if 5 * n < 8 * d then (5 * n, 4 * d) else (2, 1)
  | 2 => (10 * n, 11 * d)
  | _ => (n, d)

/-- The kernel at distance `a` / `b` in stretched input samples: sinc(x) · sinc(x / 2) below 2 for luma, sinc(x) ·
sinc(x / 1.5) below 1.5 for chroma (R131). -/
def kernelAt (chroma : Bool) (a : Int) (b : Nat) : Int :=
  if chroma then (if 2 * a.natAbs < 3 * b then sinc a b * sinc (2 * a) (3 * b) / kOne else 0)
  else if a.natAbs < 2 * b then sinc a b * sinc a (2 * b) / kOne else 0

/-- Positions of the taps beside the one at the whole part of the place: 8 for luma and 6 for chroma. -/
def tapPlaces (chroma : Bool) : List Int := if chroma then [-2, -1, 0, 1, 2, 3] else [-3, -2, -1, 0, 1, 2, 3, 4]

/-- A fraction rounded half up. -/
def roundUp (n : Int) (d : Nat) : Int := (2 * n + d) / (2 * d : Nat)

/-- The taps of phase `phase` / 64 in units of 1/128, the rounding remainder in the tap nearest the centre (R131; log 72). -/
def tapsOf (chroma : Bool) (stretch : Nat × Nat) (phase : Nat) : List Int :=
  let ks := (tapPlaces chroma).map fun t => kernelAt chroma ((64 * t - phase) * stretch.2) (64 * stretch.1)
  let total := ks.foldl (· + ·) 0
  let ts := ks.map fun k => roundUp (128 * k) total.toNat
  let centre := if phase ≤ 32 then 0 else 1
  (ts.zip (tapPlaces chroma)).map fun (t, p) => if p = centre then t + (128 - ts.foldl (· + ·) 0) else t

/-- How one axis is scaled: `out` samples of the output picture to `inp` of the rotated crop after `halved` stages, with the
spacing and the offset of the output's samples and whether siting alone makes it filter. -/
structure Axis where
  out : Nat
  inp : Nat
  halved : Nat
  spacing : Nat
  off : Nat
  resite : Bool
  filter : Nat
  chroma : Bool

/-- The place of output sample `j` among the input samples of an axis, in units of 1/64 of their distance, rounded (R131,
R129). -/
def Axis.place (a : Axis) (sp off : Nat) (j : Nat) : Int :=
  let r := a.out * 2 ^ a.halved
  roundUp (((64 * a.spacing * j + a.off) * a.inp : Nat) - (off * r : Nat)) (sp * r)

/-- The axis passes unfiltered: ratio 1 on it, and its samples stay where they are (R131). -/
def Axis.passes (a : Axis) (sp : Nat) : Bool := a.out * 2 ^ a.halved == a.inp && a.spacing == sp && !a.resite

/-- The taps of output sample `j` of an axis, and the input sample of the first. -/
def Axis.taps (a : Axis) (sp off j : Nat) : Int × List Int :=
  let p := a.place sp off j
  (p / 64, tapsOf a.chroma (stretchOf a.filter (a.spacing * a.inp) (sp * a.out * 2 ^ a.halved)) (p % 64).toNat)

/-- A plane scaled across to `w` samples. -/
def Plane.scaleX (p : Plane) (a : Axis) (w : Nat) : Plane :=
  if a.passes p.sx then { p with w, ox := a.off }
  else
    { p with
      w, sx := a.spacing, ox := a.off, den := 128 * p.den,
      val := fun x y =>
        let (b, ts) := a.taps p.sx p.ox x
        ((ts.zip (tapPlaces a.chroma)).map fun (t, d) => t * p.get (b + d) y).foldl (· + ·) 0 }

/-- A plane scaled down its columns to `h` lines. -/
def Plane.scaleY (p : Plane) (a : Axis) (h : Nat) : Plane :=
  if a.passes p.sy then { p with h, oy := a.off }
  else
    { p with
      h, sy := a.spacing, oy := a.off, den := 128 * p.den,
      val := fun x y =>
        let (b, ts) := a.taps p.sy p.oy y
        ((ts.zip (tapPlaces a.chroma)).map fun (t, d) => t * p.get x (b + d)).foldl (· + ·) 0 }

/-- FILTER of Table 06-3. -/
def Session.filter (x : Session) : Nat := fld (x.input 0) 17 2

/-- Component `c` of a frame's picture scaled to a size of `w` × `h` luma samples, chroma at half of each where `sub` holds
(stages 5 and 6). -/
def State.scaledPlane (s : State) (x : Session) (base pitch depth c w h : Nat) (sub : Bool) : Plane :=
  let p := s.colourPlane x base pitch depth c
  let hx := halvings w x.rotW
  let hy := halvings h x.rotH
  let k := if sub && c != 0 then 2 else 1
  let resite := c != 0 && !formatRgb x.inFormat && x.rotate % 2 == 1
  let axis (out inp halved off : Nat) : Axis :=
    { out, inp, halved, spacing := k, off, resite, filter := x.filter, chroma := c != 0 }
  let q := Plane.repeat Plane.halveY (Plane.repeat Plane.halveX p hx) hy
  (q.scaleX (axis w x.rotW hx 32) (w / k)).scaleY (axis h x.rotH hy (if k = 2 then 64 else 32)) (h / k)

-- Stage 7: rounding and padding -----------------------------------------------------------------------------------------

/-- The sample of a coded picture at a place: rounded once, half up, kept inside the depth's range, and repeated from the
last column and line where the place lies past the display size (Table 06-1 stage 7, R127; log 72). -/
def Plane.coded (p : Plane) (depth x y : Nat) : Nat :=
  (clampI 0 (2 ^ depth - 1 : Nat) (roundUp (p.get x y) p.den)).toNat

/-- Lines [`from`, `to`) of component `c` of a step's copy, `w` samples each. -/
def Plane.lines (p : Plane) (depth w first last : Nat) : List (List Nat) :=
  (List.range (last - first)).map fun i => (List.range w).map fun x => p.coded depth x (first + i)

/-- A step's coded chroma is subsampled. -/
def Session.subsampled (x : Session) : Bool := x.chroma == 0

/-- Lines of a picture of `h` lines that the first `rows` rows of step 0, `h0` lines high, determine (R121; log 72). -/
def linesBy (h0 h rows : Nat) : Nat := if h0 ≤ 64 * rows then h else 64 * rows * h / max 1 h0

/-- The base address of a frame's input picture. -/
def State.inputBase (s : State) (f : Frame) : Nat := s.refAddr f.input f.inputOff

/-- A step's copy carried on by the lines that rows of step 0 up to `rows` determine. -/
def State.extendCopy (s : State) (x : Session) (f : Frame) (d : StepDesc) (rows : Nat) (c : Samples) : Samples :=
  let h0 := (x.steps.map StepDesc.codedH).headD 0
  let k := if x.subsampled then 2 else 1
  let n := linesBy h0 d.codedH rows
  let plane (i : Nat) := s.scaledPlane x (s.inputBase f) f.pitch x.bitDepth i d.dispW d.dispH x.subsampled
  { y := c.y ++ (plane 0).lines x.bitDepth d.codedW c.y.length n,
    cb := c.cb ++ (plane 1).lines x.bitDepth (d.codedW / k) c.cb.length (n / k),
    cr := c.cr ++ (plane 2).lines x.bitDepth (d.codedW / k) c.cr.length (n / k) }

/-- The analysis copy carried on: step 0 at a quarter of its coded size, luma only, 8 bits (R122). -/
def State.extendAnalysis (s : State) (x : Session) (f : Frame) (rows : Nat) (ls : List (List Nat)) : List (List Nat) :=
  let h0 := (x.steps.map StepDesc.codedH).headD 0
  let p := s.scaledPlane x (s.inputBase f) f.pitch 8 0 x.anaW x.anaH false
  ls ++ p.lines 8 x.anaW ls.length (linesBy h0 x.anaH rows)

/-- The copies of a frame after `rows` rows of step 0 (R120, R121). -/
def State.condition (s : State) (x : Session) (f : Frame) (rows : Nat) : Frame :=
  { f with
    copies := (x.steps.zipIdx).map fun (d, k) => s.extendCopy x f d rows (f.copies.getD k Samples.none),
    analysis := s.extendAnalysis x f rows f.analysis }

/-- The lines of each component have the sizes of a picture `w` × `h`. -/
def samplesFit (chroma w h : Nat) (p : Samples) : Bool :=
  let plane (ls : List (List Nat)) (w h : Nat) : Bool := ls.length == h && ls.all fun l => l.length == w
  let cw := if chroma = 2 then w else ceilDiv w 2
  let ch := if chroma = 0 then ceilDiv h 2 else h
  plane p.y w h && plane p.cb cw ch && plane p.cr cw ch

/-- A sample of a list of lines, the nearest one of the edge where the place lies outside (R197). -/
def pix (ls : List (List Nat)) (x y : Int) : Nat :=
  let l := ls.getD (clampI 0 (ls.length - 1 : Nat) y).toNat []
  l.getD (clampI 0 (l.length - 1 : Nat) x).toNat 0

/-- Vectors from (`x0`, `y0`) to (`x1`, `y1`) in steps of `k`, line by line. -/
def gridOf (k : Nat) (x0 x1 y0 y1 : Int) : List (Int × Int) :=
  (List.range ((y1 - y0).toNat / k + 1)).flatMap fun j => (List.range ((x1 - x0).toNat / k + 1)).map fun i =>
    (x0 + (k * i : Nat), y0 + (k * j : Nat))

/-- Differences of an 8 × 8 block of a picture at (`x`, `y`) from a prediction of it. -/
def diffLines (cur : List (List Nat)) (x y : Nat) (pred : List (List Nat)) : List (List Int) :=
  (List.range 8).map fun j => (List.range 8).map fun i =>
    (pix cur (x + i : Nat) (y + j : Nat) : Int) - (pred.getD j []).getD i 0

end Sys2Proof.Machine
end

