-- ==== Sys2Proof/Machine/Capacity.lean ====
section
/-! DEFINITION. Spans, home groups and what is left of them (R99–R104, R122, R191, R201, R373). -/

namespace Sys2Proof.Machine

/-- The two kinds as 0 and 1, as register indices have them. -/
def kindIx (k : SpanKind) : Nat := match k with | .enc => 0 | .dec => 1

/-- The kind of a session's spans. -/
def Session.spanKind (x : Session) : SpanKind := if x.isEnc then .enc else .dec

/-- Logical to physical map of a kind. -/
def State.spanMap (s : State) (k : SpanKind) : Tbl Nat :=
  match k with | .enc => s.span.mapEnc | .dec => s.span.mapDec

/-- The state with a kind's map replaced. -/
def State.setSpanMap (s : State) (k : SpanKind) (t : Tbl Nat) : State :=
  match k with
  | .enc => { s with span := { s.span with mapEnc := t } }
  | .dec => { s with span := { s.span with mapDec := t } }

/-- The physical span of a logical index. -/
def State.physOf (s : State) (k : SpanKind) (l : Nat) : Option Nat := (s.spanMap k).find l

/-- The logical index of a physical span. -/
def State.logicalOf (s : State) (k : SpanKind) (p : Nat) : Option Nat :=
  ((s.spanMap k).find? fun e => e.2 == p).map (·.1)

/-- A physical span is in self-test. -/
def State.inTest (s : State) (k : SpanKind) (p : Nat) : Bool :=
  s.span.testing.any fun t => t.kind == k && t.phys == p

/-- A physical span is retired. -/
def State.isRetired (s : State) (k : SpanKind) (p : Nat) : Bool := s.span.retired.contains (k, p)

/-- The logical index waits for a spare that is taking it (R373). -/
def State.spareDue (s : State) (k : SpanKind) (l : Nat) : Bool := s.span.waiting.contains (k, l)

/-- Remaining spares: spans of the kind that hold no index, are not retired and not in self-test, in
ascending physical order (R373). -/
def State.spares (s : State) (k : SpanKind) : List Nat :=
  (List.range 18).filter fun p => (s.logicalOf k p).isNone && !s.isRetired k p && !s.inTest k p

/-- The logical index serves frames: it holds a span that is not in self-test. -/
def State.serves (s : State) (k : SpanKind) (l : Nat) : Bool :=
  match s.physOf k l with
  | some p => !s.inTest k p
  | none => false

/-- The logical index has lost its span for good. -/
def State.lost (s : State) (k : SpanKind) (l : Nat) : Bool := (s.physOf k l).isNone && !s.spareDue k l

/-- Logical indices of group `i` of gang size 2^lg. -/
def groupIdx (lg i : Nat) : List Nat := (List.range (2 ^ lg)).map (2 ^ lg * i + ·)

/-- Every index of the group serves frames. -/
def State.groupServes (s : State) (k : SpanKind) (lg i : Nat) : Bool := (groupIdx lg i).all fun l => s.serves k l

/-- Some index of the group has lost its span. -/
def State.groupLost (s : State) (k : SpanKind) (lg i : Nat) : Bool := (groupIdx lg i).any fun l => s.lost k l

/-- Span capacity of a kind in ksample/s at a CCLK step (R100). -/
def kindCap (k : SpanKind) (cclk : Nat) : Nat :=
  (match k with | .enc => 1000000 | .dec => 2000000) * stepQuarters cclk / 4

/-- Sessions that hold a reservation: enabled, with the check accepted (R96). -/
def Session.admitted (x : Session) : Bool := x.en && x.checkBy.isNone && x.home.isSome

/-- Two groups share a logical index. -/
def overlap (lg i lg' i' : Nat) : Bool :=
  decide (2 ^ lg * i < 2 ^ lg' * (i' + 1)) && decide (2 ^ lg' * i' < 2 ^ lg * (i + 1))

/-- Admitted sessions of a kind, other than session `but`. -/
def State.admittedOf (s : State) (k : SpanKind) (but : Option Nat) : List (Nat × Session) :=
  s.sess.filter fun e => e.2.admitted && e.2.spanKind == k && some e.1 != but

/-- The reserved rate of a group over the given sessions. -/
def groupLoad (xs : List (Nat × Session)) (lg i : Nat) : Nat :=
  ((xs.filter fun e => e.2.home == some (lg, i)).map fun e => e.2.demand).foldl (· + ·) 0

/-- Unreserved rate of a group, negative when it carries more than its rate (R100). -/
def State.groupFree (s : State) (k : SpanKind) (xs : List (Nat × Session)) (lg i : Nat) : Int :=
  (2 ^ lg * kindCap k s.clk.cclk : Nat) - (groupLoad xs lg i : Nat)

/-- The group overlaps no home group of another size (R99). -/
def fitsHomes (xs : List (Nat × Session)) (lg i : Nat) : Bool :=
  xs.all fun e =>
    match e.2.home with
    | some (lg', i') => lg' == lg || !overlap lg i lg' i'
    | none => true

/-- Groups of a gang size that can be a home now: every index serves, and no home of another size overlaps. -/
def State.homeGroups (s : State) (k : SpanKind) (xs : List (Nat × Session)) (lg : Nat) : List Nat :=
  (List.range (16 / 2 ^ lg)).filter fun i => s.groupServes k lg i && fitsHomes xs lg i

/-- The lowest group of the gang size whose unreserved rate holds `d` (R99). -/
def State.chooseHome (s : State) (k : SpanKind) (xs : List (Nat × Session)) (lg d : Nat) : Option Nat :=
  (s.homeGroups k xs lg).find? fun i => decide ((d : Int) ≤ s.groupFree k xs lg i)

/-- The group of the gang size with the most unreserved rate, the lowest of equals (R104). -/
def State.roomiest (s : State) (k : SpanKind) (xs : List (Nat × Session)) (lg : Nat) : Option Nat :=
  (s.homeGroups k xs lg).foldl (fun acc i =>
    match acc with
    | some j => if s.groupFree k xs lg i > s.groupFree k xs lg j then some i else acc
    | none => some i) none

/-- Some session of the kind is OVERCOMMITTED (R104). -/
def State.overcommitted (s : State) (k : SpanKind) : Bool :=
  (s.admittedOf k none).any fun e => e.2.overcommitted

/-- A home group is lost or shrunken (R104): it has lost a span for good, or carries more than its rate. A span that only
awaits its spare or tests in place is not lost. -/
def State.homeBad (s : State) (k : SpanKind) (xs : List (Nat × Session)) (lg i : Nat) : Bool :=
  s.groupLost k lg i || decide (s.groupFree k xs lg i < 0)

/-- Unreserved rate of a group when every home that meets it counts whole, of whatever size. -/
def State.sharedFree (s : State) (k : SpanKind) (xs : List (Nat × Session)) (lg i : Nat) : Int :=
  (2 ^ lg * kindCap k s.clk.cclk : Nat) - (((xs.filter fun e =>
    match e.2.home with
    | some (lg', i') => overlap lg i lg' i'
    | none => false).map fun e => e.2.demand).foldl (· + ·) 0 : Nat)

/-- The serving group of the gang size with the most rate that is left beside every home that meets it, the lowest of
equals: where homes of other sizes meet every group of the size (R104, log 67). -/
def State.roomiestShared (s : State) (k : SpanKind) (xs : List (Nat × Session)) (lg : Nat) : Option Nat :=
  ((List.range (16 / 2 ^ lg)).filter fun i => s.groupServes k lg i).foldl (fun acc i =>
    match acc with
    | some j => if s.sharedFree k xs lg i > s.sharedFree k xs lg j then some i else acc
    | none => some i) none

/-- A session's home carries more than its rate, or can no longer serve (Table 05-1, R104). -/
def State.overHome (s : State) (k : SpanKind) (x : Session) : Bool :=
  match x.home with
  | some (lg, i) => s.groupLost k lg i || decide (s.sharedFree k (s.admittedOf k none) lg i < 0)
  | none => false

/-- OVERCOMMITTED is judged again when a reservation of the kind has gone (R104): it clears where the home carries no more
than its rate, and in an entry that holds no reservation. -/
def State.rejudge (s : State) (k : SpanKind) : State :=
  { s with sess := s.sess.mapIf (fun _ x => x.overcommitted && x.spanKind == k) fun x =>
      { x with overcommitted := x.admitted && s.overHome k x } }

/-- A session is disabled: its reservation of spans is gone (R97, R104). -/
def State.disableSession (s : State) (i : Nat) (f : Session → Session) : State :=
  (s.setSession i { f (s.session i) with en := false, checkBy := none, hint := none }).rejudge (s.session i).spanKind

/-- Sessions are homed anew in ascending id, all of them first without a home. OVERCOMMITTED is set where a session fits nowhere
(R104; log 67). -/
def State.homeAnew (s : State) (k : SpanKind) (bad : List (Nat × Session)) : State :=
  bad.foldl (fun st e =>
    let x := st.session e.1
    let others := st.admittedOf k (some e.1)
    let lg := x.gangLog
    let (home, excess) :=
      match st.chooseHome k others lg x.demand with
      | some i => (some (lg, i), false)
      | none =>
        match st.roomiest k others lg with
        | some i => (some (lg, i), true)
        | none =>
          match st.roomiestShared k others lg with
          | some i => (some (lg, i), true)
          | none => (e.2.home, true)
    st.setSession e.1 { x with home, overcommitted := excess })
    (bad.foldl (fun st e => st.setSession e.1 { st.session e.1 with home := none }) s)

/-- Sessions of a kind are homed anew after its capacity changed (R104): those on a lost or shrunken group; the others keep their
homes, and OVERCOMMITTED clears where the home carries no more than its rate (logs 22, 67). -/
def State.rehome (s : State) (k : SpanKind) : State :=
  let xs := s.admittedOf k none
  let bad := xs.filter fun e =>
    match e.2.home with
    | some (lg, i) => s.homeBad k xs lg i
    | none => false
  ((xs.filter fun e => !(bad.any fun b => b.1 == e.1)).foldl
    (fun st e => st.setSession e.1 { st.session e.1 with overcommitted := false }) s).homeAnew k bad

/-- An index serves again: sessions that stayed on a lost group for want of any of their size are homed anew (R104). -/
def State.rehomeLost (s : State) (k : SpanKind) : State :=
  s.homeAnew k ((s.admittedOf k none).filter fun e =>
    match e.2.home with
    | some (lg, i) => s.groupLost k lg i
    | none => false)

/-- SPAN_TICKS follow the CCLK step in every entry that an accepted enable has filled (Table 05-1; log 90). -/
def State.retime (s : State) : State :=
  { s with sess := s.sess.mapIf (fun _ x => x.claimed && x.expTicks != 0) fun x => { x with spanTicks := x.c s.clk.cclk } }

/-- Unreserved rate of a kind in ksample/s at the current step; 0 while overcommitted (R104). -/
def State.unreserved (s : State) (k : SpanKind) : Nat :=
  if s.overcommitted k then 0
  else ((List.range 16).filter fun l => s.serves k l).length * kindCap k s.clk.cclk -
    ((s.admittedOf k none).map fun e => e.2.demand).foldl (· + ·) 0

-- Vestibule and Mezzanine ------------------------------------------------------------------------------

/-- Charges of a session in ksample/s: Vestibule input, Vestibule output, Mezzanine (R122, R191). -/
def Session.charges (x : Session) : Nat × Nat × Nat :=
  (x.perSecond (x.cropW * x.cropH),
   x.perSecond ((x.steps.map StepDesc.samples).foldl (· + ·) 0 + x.anaSamples), x.perSecond x.anaSamples)

/-- Charges standing on pair `n` of the given sessions. -/
def pairLoad (xs : List (Nat × Session)) (n : Nat) : Nat × Nat × Nat :=
  (xs.filter fun e => e.2.vb == some n).foldl (fun acc e =>
    let (a, b, c) := e.2.charges
    (acc.1 + a, acc.2.1 + b, acc.2.2 + c)) (0, 0, 0)

/-- The pair of check 14: the lowest with room, or the reason (R122). -/
def choosePair (x : Session) (xs : List (Nat × Session)) : Nat ⊕ Nat :=
  let (ci, co, cm) := x.charges
  let vbs := (List.range 4).filter fun n =>
    let (li, lo, _) := pairLoad xs n
    decide (li + ci ≤ 5000000) && decide (lo + co ≤ 10000000)
  match vbs.find? fun n => decide ((pairLoad xs n).2.2 + cm ≤ 320000) with
  | some n => .inl n
  | none => if vbs.isEmpty then .inr 0x0804 else .inr 0x0805

-- Device memory ------------------------------------------------------------------------------------------

/-- Bytes a session holds above the pools (R201, R208). -/
def Session.reserved (x : Session) : Nat := x.gallery + x.copies + x.flights + x.burstExtra

/-- Free device memory (R201). -/
def State.freeMemory (s : State) : Nat :=
  memEnd - s.poolsEnd - ((s.sess.map fun e => e.2.reserved).foldl (· + ·) 0)

/-- FLIGHT_MIB of a flow image (Table 11-2). -/
def imageFlightMib (ws : List Word) : Nat := fld (wd ws 4) 0 7

/-- The flow of step `k` of a session. -/
def flowId (sess k : Nat) : Nat := sess * 8 + k

/-- A flow's entry. -/
def State.flow (s : State) (f : Nat) : Flow := s.flows.get f Flow.reset

/-- The state with a flow's entry replaced. -/
def State.setFlow (s : State) (f : Nat) (x : Flow) : State := { s with flows := s.flows.put f x }

/-- The flights of a session's configured steps (R241). -/
def State.flightBytes (s : State) (i : Nat) (x : Session) : Nat :=
  if x.isEnc then
    ((List.range x.steps.length).map fun k => imageFlightMib (s.flow (flowId i k)).image * 1048576).foldl (· + ·) 0
  else 0

-- Registers computed from the spans ----------------------------------------------------------------------

/-- A mask of the numbers below `n` that satisfy `p`. -/
def maskOf (n : Nat) (p : Nat → Bool) : Word :=
  BitVec.ofNat 32 (((List.range n).map fun i => if p i then 2 ^ i else 0).foldl (· + ·) 0)

/-- SPAN.MAP_ES and MAP_DS (Table 19-17). -/
def State.mapReg (s : State) (k : SpanKind) (r : Nat) : Word :=
  (List.range 4).foldl (fun w b => w ||| at_ (8 * b) ((s.physOf k (4 * r + b)).getD 0x1F)) 0

/-- SPAN.HOME_SIZE (Table 19-17). -/
def State.homeSize (s : State) (k : SpanKind) : Word :=
  let xs := s.admittedOf k none
  (List.range 16).foldl (fun w l =>
    match xs.findSome? fun e => match e.2.home with
      | some (lg, i) => if (groupIdx lg i).contains l then some (lg + 1) else none
      | none => none with
    | some v => w ||| at_ (2 * l) v
    | none => w) 0

/-- Spans holding a grant: the physical span's logical index lies in a group that holds one (Table 19-17). -/
def State.busy (s : State) (k : SpanKind) (p : Nat) : Bool :=
  match s.logicalOf k p with
  | some l => s.span.groups.any fun (e : Nat × Group) =>
      e.2.holder.isSome && e.1 / 64 == kindIx k && (groupIdx (e.1 / 16 % 4) (e.1 % 16)).contains l
  | none => false

end Sys2Proof.Machine
end

