-- ==== Sys2Proof/Machine/Admission.lean ====
section
/-! DEFINITION. The consistency check and admission of a session: Table 05-2 in order, with the rules it
cites (R98, R125–R131, R139, R166, R167, R183, R199, R254). -/

namespace Sys2Proof.Machine

/-- The first failing check of a list made in order: its reason. -/
def firstReason (cs : List (Bool × Nat)) : Option Nat := (cs.find? fun c => !c.1).map (·.2)

/-- Highest QP of the codec (R143). -/
def qpTop (codec : Nat) : Nat := if codec = 0 then 255 else 51

/-- `n` lies in [lo, hi]. -/
def within (lo hi n : Nat) : Bool := decide (lo ≤ n) && decide (n ≤ hi)

/-- The rate and QP fields of one step under the session's RC_MODE (R183, Table 08-4). -/
def Session.rateReason (x : Session) (d : StepDesc) : Option Nat :=
  let n := x.frameBits d.target
  let np := x.frameBits d.peak
  let t := within 100 1000000 d.target
  let p := within d.target 1000000 d.peak
  let units := stepUnits x.codec d (stepGang x.codec d x.gangSize)
  let rate :=
    match x.rcMode with
    | 0 => t && d.peak == 0
    | 1 => t && p
    | 2 => d.target == 0 && d.peak == 0
    | _ => t && p && decide (48 * units + 8192 ≤ np)
  let buf :=
    match x.rcMode with
    | 0 => within n (64 * n) d.bufBits
    | 1 => within np (64 * np) d.bufBits
    | _ => d.bufBits == 0
  firstReason [(decide (x.rcMode ≤ 3), 0x0401), (rate, 0x0402),
    (decide (d.qpMin ≤ d.qpInit) && decide (d.qpInit ≤ d.qpMax) && decide (d.qpMax ≤ qpTop x.codec), 0x0403),
    (buf, 0x0404)]

/-- A decode session's rate fields are all 0 (R183). -/
def Session.decRateReason (x : Session) : Option Nat :=
  firstReason [(x.rcMode == 0, 0x0401), (x.targetKbps == 0 && x.peakKbps == 0, 0x0402),
    (x.qpMin == 0 && x.qpMax == 0 && x.qpInit == 0, 0x0403), (x.bufferBits == 0, 0x0404)]

/-- Latency fields under Table 05-3 (R98). -/
def Session.latencyOk (x : Session) : Bool :=
  let flight := within 1 7 x.inflight
  if !x.isEnc then x.latency == 0 && x.lookahead == 0 && x.bframes == 0 && flight
  else
    match x.latency with
    | 0 => x.lookahead == 0 && x.bframes == 0 && x.inflight == 1
    | 1 => x.lookahead == 4 && decide (x.bframes ≤ 3) && flight
    | 2 => within 1 32 x.lookahead && flight
    | _ => false

/-- GANG is allowed and step 0 splits for it (check 6, R153). -/
def Session.gangOk (x : Session) : Bool :=
  let own : StepDesc :=
    { dispW := x.width, dispH := x.height, target := 0, peak := 0, bufBits := 0, qpMin := 0, qpMax := 0, qpInit := 0 }
  if !x.isEnc then x.gang == 1
  else (x.gang == 1 || x.gang == 2 || x.gang == 4) && (stepSplit x.codec own x.gang).isSome

/-- A 4-bit signed offset of at most 6 in magnitude (Table 07-7). -/
def offsetOk (v : Nat) : Bool := decide (v ≤ 6) || decide (10 ≤ v)

/-- Tool controls (R166, Table 07-7). -/
def Session.toolsOk (x : Session) : Bool :=
  let t0 := x.tool 0
  let t1 := x.tool 1
  (!bit t0 31 || x.codec == 2 || (x.codec == 1 && x.gang == 1)) && (!bit t0 30 || x.codec == 0) &&
    ((!bit t0 29 && !bit t0 28) || x.codec == 0 || x.codec == 2) && fld t0 22 2 != 3 &&
    decide (fld t0 19 3 ≤ 4) && fld t0 16 3 != 7 && decide (fld t0 12 4 ≤ 8) && fld t0 0 12 == 0 &&
    !bit t1 24 && offsetOk (fld t1 20 4) && offsetOk (fld t1 16 4) && fld t1 0 8 == 0 &&
    fld (x.tool 2) 0 29 == 0 && x.tool 3 == 0 && (x.tool 5).toNat % 32 == 0

/-- The HDR block's reason, if it fails (R167). -/
def State.hdrReason (s : State) (x : Session) : Option Nat :=
  let h := x.tool 4
  let off := x.tool 5
  if h = 0 then none
  else if !(x.inTransfer == 1 || x.inTransfer == 2) then some 0x0204
  else match s.checkRef x.owner h off 32 0 with
    | some r => some r.reason
    | none => if s.loadW (s.refAddr h off + 28) == 0 then none else some 0x0204

/-- The HDR block as the check copies it into the session (R167). -/
def State.hdrCopy (s : State) (x : Session) : List Word :=
  if x.tool 4 = 0 then [] else s.loadWs (s.refAddr (x.tool 4) (x.tool 5)) 8

/-- Input settings against Table 06-3 and R128–R130. -/
def Session.inputOk (x : Session) : Bool :=
  let f := x.inFormat
  let rgb := decide (f ≤ 3)
  let even (n : Nat) := n % 2 == 0
  decide (f ≤ 5) && decide (x.inMatrix ≤ 1) && decide (x.inTransfer ≤ 2) && !(rgb && x.inFull) &&
    fld (x.input 0) 17 2 != 3 && fld (x.input 0) 0 17 == 0 &&
    even x.srcW && within 64 8192 x.srcW && even x.srcH && within 64 8192 x.srcH &&
    (if x.cropWhole then x.cropX == 0 && x.cropY == 0
     else even x.cropX && even x.cropY && even x.cropW && even x.cropH && decide (32 ≤ x.cropW) &&
       decide (32 ≤ x.cropH) && decide (x.cropX + x.cropW ≤ x.srcW) && decide (x.cropY + x.cropH ≤ x.srcH)) &&
    (x.chroma == 0 || (x.chroma == 2 && rgb)) &&
    (x.inTransfer == 0 || (x.inMatrix == 1 && x.bitDepth == 10 && (f == 2 || f == 3 || f == 5)))

/-- Scaling ratios of a size on both axes (R131). -/
def Session.ratiosOk (x : Session) (w h : Nat) : Bool := ratioOk w x.rotW && ratioOk h x.rotH

/-- The step table against R139, rule by rule, each over the steps in ascending order. -/
def Session.stairReason (x : Session) : Option Nat :=
  let ds := x.steps
  let d0 := ds.headD { dispW := 0, dispH := 0, target := 0, peak := 0, bufBits := 0, qpMin := 0, qpMax := 0, qpInit := 0 }
  let even (n : Nat) := n % 2 == 0
  let pairs := ds.zip (ds.drop 1)
  let shape (d : StepDesc) :=
    let a := d.dispW * d0.dispH
    let b := d.dispH * d0.dispW
    decide (64 * (max a b - min a b) ≤ max a b)
  match firstReason
      [(ds.all fun d => even d.dispW && even d.dispH && decide (64 ≤ d.dispW) && decide (64 ≤ d.dispH), 0x0105),
       (d0.codedW == x.width && d0.codedH == x.height, 0x0105),
       (pairs.all fun p => decide (p.2.dispW ≤ p.1.dispW) && decide (p.2.dispH ≤ p.1.dispH), 0x0105),
       (ds.all fun d => decide (d0.dispW ≤ 8 * d.dispW) && decide (d0.dispH ≤ 8 * d.dispH), 0x0105),
       (ds.all shape, 0x0105),
       (ds.all fun d => x.ratiosOk d.dispW d.dispH, 0x0106)] with
  | some r => some r
  | none => ds.findSome? x.rateReason

-- Flows ------------------------------------------------------------------------------------------------

/-- Fields of a flow image (Table 11-2). -/
def imgMem (ws : List Word) : Bool := bit (wd ws 0) 31
def imgKey (ws : List Word) : Nat := fld (wd ws 0) 16 8
def imgPayload (ws : List Word) : Nat := fld (wd ws 0) 0 16
def imgRate (ws : List Word) : Nat := (wd ws 1).toNat
def imgWeight (ws : List Word) : Nat := max 1 (fld (wd ws 2) 24 8)
def imgBurst (ws : List Word) : Nat := fld (wd ws 2) 0 24
def imgOverhead (ws : List Word) : Nat := fld (wd ws 3) 0 9
def imgSalt (ws : List Word) : Word := wd ws 5
def imgLogSlots (ws : List Word) : Nat := fld (wd ws 8) 16 4
def imgSlotBytes (ws : List Word) : Nat := fld (wd ws 8) 0 16
def imgRingBus (ws : List Word) : Nat := pair64 (wd ws 7) (wd ws 6)
def imgConsBus (ws : List Word) : Nat := pair64 (wd ws 10) (wd ws 9)
def imgDoorbell (ws : List Word) : Nat := pair64 (wd ws 12) (wd ws 11)

/-- Bits of the image words that Table 11-2 gives a field. -/
def imageMasks : List Word :=
  [0x80FFFFFF, allW, allW, 0x1FF, 0x7F, allW, allW, allW, 0xFFFFF, allW, allW, allW, allW, 0, 0, 0]

/-- Reserved fields of an image are 0 (R253). -/
def imageReservedOk (ws : List Word) : Bool :=
  (ws.zip imageMasks).all fun (w, m) => w &&& ~~~m == 0

/-- Bytes of the largest packet: header, payload and, when encrypted, the tag (R254). -/
def imgLargest (ws : List Word) : Nat := 32 + imgPayload ws + (if imgKey ws = 0xFF then 0 else 16)

/-- The rate a step's flow must carry (R254 rule 5). -/
def Session.flowRate (x : Session) (d : StepDesc) : Nat :=
  match x.rcMode with
  | 0 => d.target
  | 1 => d.peak
  | 2 => 0
  | _ => d.peak

/-- The frame bound of a step in bytes, none under CQP (R254 rule 6). -/
def Session.frameBound (x : Session) (d : StepDesc) : Option Nat :=
  match x.rcMode with
  | 0 => some (ceilDiv (x.frameBits d.target) 8)
  | 2 => none
  | _ => some (ceilDiv (x.frameBits d.peak) 8)

/-- A key slot. -/
def State.key (s : State) (k : Nat) : KeySlot := s.sec.slots.get k KeySlot.reset

/-- A key slot serves a use of function `fid`: the reason if it does not (R220, R254). Usage bit 0 permits
decode, bit 1 egress (Table 16-7). -/
def State.keyReason (s : State) (k fid usage : Nat) : Option Nat :=
  let x := s.key k
  if x.state ≠ 1 then some 0x0602
  else if x.owner ≠ fid then some 0x0603
  else if x.usage ≠ usage then some 0x0604
  else none

/-- Rule `n` of R254 on an image: its reason if the image breaks it. -/
def State.flowRule (s : State) (x : Session) (d : StepDesc) (ws : List Word) (n : Nat) : Option Nat :=
  let fail (ok : Bool) (r : Nat) := if ok then none else some r
  let slots := 2 ^ imgLogSlots ws
  match n with
  | 1 => fail (!ws.isEmpty) 0x0406
  | 2 => fail (imageReservedOk ws && within 256 9216 (imgPayload ws) && within 64 100000000 (imgRate ws) &&
      within 1 64 (imageFlightMib ws) && within 4 15 (imgLogSlots ws) && imgSlotBytes ws % 64 == 0) 0x0406
  | 3 => fail (decide (imgLargest ws ≤ imgSlotBytes ws)) 0x0406
  | 4 => fail (decide (imgLargest ws + imgOverhead ws ≤ imgBurst ws)) 0x0406
  | 5 => fail (decide (x.flowRate d ≤ imgRate ws)) 0x0406
  | 6 =>
    match x.frameBound d with
    | none => none
    | some b => fail (decide (4 * b ≤ (imageFlightMib ws * 16 - 1) * 65536)) 0x0406
  | 7 =>
    if imgMem ws then
      match s.checkRef x.owner (wd ws 6) (wd ws 7) (slots * imgSlotBytes ws) 0 with
      | some r => some r.reason
      | none =>
        match s.checkRef x.owner (wd ws 9) (wd ws 10) 4 0 with
        | some r => some r.reason
        | none => fail (imgDoorbell ws == 0) 0x0406
    else fail (decide (imgRingBus ws + slots * imgSlotBytes ws ≤ 2 ^ 64) && decide (imgConsBus ws + 4 ≤ 2 ^ 64) &&
      decide (imgDoorbell ws + 4 ≤ 2 ^ 64)) 0x0301
  | 8 =>
    let base := if imgMem ws then s.refAddr (wd ws 6) (wd ws 7) else imgRingBus ws
    let cons := if imgMem ws then s.refAddr (wd ws 9) (wd ws 10) else imgConsBus ws
    fail (base % 64 == 0 && cons % 4 == 0) 0x0305
  | _ => if imgKey ws = 0xFF then none else s.keyReason (imgKey ws) x.owner 2

/-- The flows of a session's steps against R254, in ascending order. -/
def State.flowsReason (s : State) (i : Nat) (x : Session) : Option Nat :=
  (x.steps.zipIdx).findSome? fun (d, k) =>
    let ws := (s.flow (flowId i k)).image
    [1, 2, 3, 4, 5, 6, 7, 8, 9].findSome? fun n => s.flowRule x d ws n

-- Table 05-2 -------------------------------------------------------------------------------------------

/-- Checks 1 to 12 of Table 05-2 on session `i`, in order: the reason of the first that fails. -/
def State.configReason (s : State) (i : Nat) (x : Session) : Option Nat :=
  let row := x.profileRow
  let tier := match row with | some r => r.tiers.contains x.tier | none => false
  let form := match row with | some r => r.depths.contains x.bitDepth && r.chromas.contains x.chroma | none => false
  let budget := x.dlBudget
  let e := x.e s.clk.cclk
  match firstReason
      [((x.kind == 1 && decide (x.codec ≤ 3)) || (x.kind == 2 && decide (x.codec ≤ 4)), 0x0201),
       (tier && x.levelRow.isSome, 0x0202), (form, 0x0203),
       (within 64 8192 x.width && within 64 4352 x.height, 0x0101),
       (x.width % 8 == 0 && x.height % 8 == 0, 0x0102), (x.levelFits, 0x0103), (x.latencyOk, 0x0205),
       (x.gangOk, 0x0104), (!x.drop || x.bframes == 0, 0x0505),
       (x.fpsNum != 0 && x.fpsDen != 0 && decide (x.fpsNum ≤ 240 * x.fpsDen), 0x0405)] with
  | some r => some r
  | none =>
    match (if x.isEnc then x.steps.head?.bind x.rateReason else x.decRateReason) with
    | some r => some r
    | none =>
      let nine :=
        if x.isEnc then
          [(if x.toolsOk then none else some 0x0204), s.hdrReason x, (if x.inputOk then none else some 0x0208),
           (match x.steps with
            | d :: _ => if x.ratiosOk d.dispW d.dispH && x.ratiosOk x.anaW x.anaH then none else some 0x0106
            | [] => none),
           x.stairReason, s.flowsReason i x]
        else []
      match (nine ++ [if x.refsOk then none else some 0x0306]).findSome? id with
      | some r => some r
      | none =>
        firstReason [(!x.isProtected || budget != 0, 0x0504), (budget == 0 || decide (e ≤ budget), 0x0502),
          (!x.isProtected || decide (2 * e ≤ budget), 0x0503)]

/-- What an accepted check fixes: home group, pair, and the three reservations. -/
structure Admitted where
  home : Nat
  vb : Option Nat
  gallery : Nat
  copies : Nat
  flights : Nat
deriving DecidableEq, Repr

/-- Checks 13 to 16: capacity (R99–R104, R122, R191, R201, R376). -/
def State.capacityCheck (s : State) (i : Nat) (x : Session) : Nat ⊕ Admitted :=
  let k := x.spanKind
  let xs := s.admittedOf k (some i)
  let lg := x.gangLog
  let rate := if x.isEnc then 0x0801 else 0x0802
  if s.overcommitted k then .inl rate
  else if (s.homeGroups k xs lg).isEmpty then .inl 0x0803
  else match s.chooseHome k xs lg x.d with
    | none => .inl rate
    | some h =>
      match (if x.isEnc then choosePair x xs else .inl 0) with
      | .inr r => .inl r
      | .inl n =>
        let need := x.galleryBytes + x.copyBytes + s.flightBytes i x
        let held := x.gallery + x.copies + x.flights
        if decide (need > held) && decide (need - held > s.freeMemory) then .inl 0x0808
        else if x.isProtected && (s.spares k).isEmpty then .inl 0x0806
        else .inr { home := h, vb := if x.isEnc then some n else none, gallery := x.galleryBytes,
                    copies := x.copyBytes, flights := s.flightBytes i x }

/-- The outcome of the consistency check (R96): status and reason, or what admission gives. -/
def State.consistency (s : State) (i : Nat) (x : Session) : (Nat × Nat) ⊕ Admitted :=
  match s.configReason i x with
  | some r => .inl (0x10, r)
  | none =>
    match s.capacityCheck i x with
    | .inl r => .inl (0x11, r)
    | .inr a => .inr a

end Sys2Proof.Machine
end

