-- ==== Sys2Proof/Machine/Irq.lean ====
section
/-! DEFINITION. The interrupt controller (R311–R326): delivery, hold-off windows, claim and completion by
control processors, wake of sleeping functions and ports. -/

namespace Sys2Proof.Machine

/-- The result of a command. -/
abbrev Res := Host.Outcome State Fault Refusal

/-- A target can take a delivery: valid and not masked by its sideband (R314). -/
def State.targetOpen (s : State) (t : IstTarget) : Bool :=
  t.valid && (if t.isCp then !s.regB (Reg.cpCtrl t.vector) 31
              else s.reachable t.fid && !(s.fn t.fid).d3hot)

/-- The entry is enabled (R312). -/
def IstEntry.enabled (e : IstEntry) : Bool := e.en && e.owner != 0

/-- The source is requested of some control processor already. -/
def State.requested (s : State) (src : Nat) : Bool := s.ic.reqs.any fun r => r.1 == src

/-- The source is deliverable but for hold-off (R314), and no delivery of it is in flight. -/
def State.deliverable (s : State) (src : Nat) : Bool :=
  let e := s.ist src
  e.enabled && !e.mask && e.pend && !e.active && e.latched.isNone && !s.requested src

/-- The group's window holds a source that was not deliverable by the end of the window's start tick (R319). -/
def State.groupHolds (s : State) (g : Nat) : Bool :=
  match s.ic.wins.find g with
  | some (a, b) => decide (a < s.now) && decide (s.now < b)
  | none => false

/-- The target that a delivery examines first and takes: the first open one from RR_NEXT on (R314). -/
def State.chosen (s : State) (e : IstEntry) : Option (Nat × IstTarget) :=
  ((List.range 4).map fun i => (e.rrNext + i) % 4).findSome? fun k =>
    match e.targets[k]? with
    | some t => if s.targetOpen t then some (k, t) else none
    | none => none

/-- A message to port `n`'s host brings the link back from L1 and its substates to L0 (R323, Table 03-2). -/
def State.wakeLink (s : State) (n : Nat) : State :=
  if 2 ≤ s.regF (Reg.portStatus n) 0 3 && s.regF (Reg.portStatus n) 0 3 ≤ 4 then s.setRegF (Reg.portStatus n) 0 3 0 else s

/-- An MSI-X message is written to its host (R323), unless an Insecure IDE stream drops the device's writes (R369). -/
def State.emitMsix (s : State) (fid vec : Nat) : State :=
  if s.ideDrops (portOf fid) .device then s else (s.wakeLink (portOf fid)).emit (.msix fid vec)

/-- An MSI-X message is issued (R315): one per vector and tick; a masked one goes to the Pending Bit Array. -/
def State.sendMsix (s : State) (fid vec : Nat) : State :=
  let sent := if s.ic.sentAt = s.now then s.ic.sent else []
  if sent.contains (fid, vec) then s
  else
    let s1 := { s with ic := { s.ic with sentAt := s.now, sent := sent ++ [(fid, vec)] } }
    let s2 := s1.bump (Reg.msgCount (portOf fid)) 0 32
    let f := s2.fn fid
    if f.funcMask || !f.unmasked.contains vec then
      s2.setFn fid { f with pba := if f.pba.contains vec then f.pba else f.pba ++ [vec] }
    else s2.emitMsix fid vec

/-- A function in D3hot is woken (R325): PME_Status is set, and a PME message goes when PME_En is 1. -/
def State.wakeFn (s : State) (fid : Nat) : State :=
  let f := s.fn fid
  let s1 := s.setFn fid { f with pmeStatus := true }
  if f.pmeEn then s1.emit (.pme fid) else s1

/-- The functions in D3hot among a source's targets are woken (R321, R322, R325). -/
def State.wakeTargets (s : State) (e : IstEntry) (any : Bool) : State :=
  e.targets.foldl (fun st t =>
    if t.valid && !t.isCp && st.reachable t.fid && (st.fn t.fid).d3hot && (any || !(st.fn t.fid).funcMask) then
      st.wakeFn t.fid
    else st) s

/-- The group's window is open: half-open, so no longer at its end tick (R92, R319). -/
def State.groupOpen (s : State) (g : Nat) : Bool :=
  match s.ic.wins.find g with
  | some (_, b) => decide (s.now < b)
  | none => false

/-- A window of the group opens at a delivery, unless one is open (R319). -/
def State.openWindow (s : State) (g : Nat) : State :=
  let h := s.regF (Reg.grpHoldoff g) 0 16
  if h = 0 || s.groupOpen g then s
  else { s with ic := { s.ic with wins := s.ic.wins.put g (s.now, s.now + h * 100) } }

/-- A source enters the request set of a control processor (R316). -/
def State.request (s : State) (src cp : Nat) : State :=
  { s with ic := { s.ic with reqs := s.ic.reqs ++ [(src, cp)], reqAt := s.ic.reqAt.put src s.cyc } }

/-- The delivery of a requested source was latched at most four cycles ago (R318). -/
def State.justRequested (s : State) (src : Nat) : Bool :=
  s.requested src && decide (s.cyc ≤ s.ic.reqAt.get src 0 + 4)

/-- A deliverable source is latched in this cycle and delivered to its chosen target (R314–R316): a request of a control
processor, or a message that leaves at the end of the cycle. With every valid target masked it stays pending. -/
def State.deliver (s : State) (src : Nat) : State :=
  let e := s.ist src
  match s.chosen e with
  | some (k, t) =>
    let e1 := { e with rrNext := (k + 1) % 4, latched := if t.isCp then none else some s.cyc }
    let s1 := if t.isCp then (s.setIst src e1).request src t.vector else s.setIst src e1
    let s2 := s1.openWindow (src / 16)
    let l : Latch := { src, before := e.rrNext, msg := if t.isCp then none else some (t.fid, t.vector),
                       opened := !s.groupOpen (src / 16) && s2.groupOpen (src / 16) }
    { s2 with ic := { s2.ic with latches := s2.ic.latches ++ [l] } }
  | none => s

/-- The messages of the latched deliveries that satisfy `p` leave (R315); the others wait for the end of the cycle. -/
def State.sendLatched (s : State) (p : Latch → Bool) : State :=
  (s.ic.latches.filter p).foldl (fun st l =>
    match l.msg with
    | some (f, v) => st.sendMsix f v
    | none => st)
    { s with ic := { s.ic with latches := s.ic.latches.filter fun l => !p l } }

/-- Sources that satisfy `p` are delivered in ascending order. -/
def State.deliverWhere (s : State) (p : State → Nat → Bool) : State :=
  (s.ic.ist.map (·.1)).foldl (fun st src => if p st src then st.deliver src else st) s

/-- A source leaves every request set (R316). -/
def State.withdraw (s : State) (src : Nat) : State :=
  { s with ic := { s.ic with reqs := s.ic.reqs.filter fun r => r.1 != src } }

/-- A delivery latched in this cycle is stopped by a mask write of the same cycle (R318): RR_NEXT and the window stand as
before it, and the source stays pending. -/
def State.stopLatch (s : State) (src : Nat) : State :=
  match s.ic.latches.find? fun l => l.src == src with
  | none => s
  | some l =>
    let g := src / 16
    let rest := (s.ic.latches.filter fun m => m.src != src).map fun m =>
      if m.src / 16 == g && l.opened then { m with opened := true } else m
    let shut := l.opened && !rest.any fun m => m.src / 16 == g
    let s1 := (s.withdraw src).setIst src { s.ist src with rrNext := l.before, latched := none }
    { s1 with ic := { s1.ic with latches := rest, wins := if shut then s1.ic.wins.del g else s1.ic.wins } }

/-- A source with its event wakes the sleeping functions among its targets: with WAKE_ANY each target of an enabled source
(R322); natively those of a deliverable source, whether or not a window holds it, that no other target can take (R321, R325). -/
def State.rouse (s : State) (src : Nat) : State :=
  let e := s.ist src
  if s.regB Reg.icCtrl 31 then if e.enabled && e.pend then s.wakeTargets e true else s
  else if s.deliverable src && (s.chosen e).isNone then s.wakeTargets e false
  else s

/-- The group's window has reached its end tick (R319): it closes and the group's sources are delivered; the delivery opens
the next window. -/
def State.closeWindow (s : State) (g : Nat) : State :=
  if (s.ic.wins.find g).isNone || s.groupOpen g then s
  else
    { s with ic := { s.ic with wins := s.ic.wins.del g } }.deliverWhere fun st src => src / 16 == g && st.deliverable src

/-- INTERRUPT_DELIVERY (R314): a deliverable source that no window holds is latched and delivered; where the group's window has
reached its end, the whole group is (R319). Sleeping targets are woken (R321, R322, R325). -/
def execInterruptDelivery (source : Fin 1023) (s : State) : Res :=
  let src := source.val
  if s.ic.gated then .next s
  else
    let s0 := s.rouse src
    if s.deliverable src && !s.groupHolds (src / 16) then
      let s1 := s0.closeWindow (src / 16)
      .next (if s1.deliverable src then s1.deliver src else s1)
    else .next s0

/-- HOLDOFF_WINDOW_END (R319). Before the end tick nothing happens. -/
def execHoldoffWindowEnd (g : Fin 64) (s : State) : Res :=
  if s.ic.gated then .next s else .next (s.closeWindow g.val)

/-- A write of SRC_PEND_SET by the source's owner or a control processor (R317). -/
def State.srcPendSetWrite (s : State) (a : Agent) (v : Word) : State :=
  let src := fld v 0 10
  if src = 1023 then s
  else if a.isCp || (s.ist src).owner == a.code then s.raise src
  else s.protoEventA a Reg.srcPendSet

/-- SRC_PEND_SET (R317). -/
def execSrcPendSet (a : Agent) (v : Word) (s : State) : Res :=
  if !s.live a then .next s else .next (s.srcPendSetWrite a v)

/-- A write of SRC_PEND_CLR: PEND clears and the source leaves the request sets (R316, R317). -/
def State.srcPendClrWrite (s : State) (a : Agent) (v : Word) : State :=
  let src := fld v 0 10
  if src = 1023 then s
  else if a.isCp || (s.ist src).owner == a.code then
    (s.setIst src { s.ist src with pend := false, reRaised := false }).withdraw src
  else s.protoEventA a Reg.srcPendClr

/-- SRC_PEND_CLR (R317). -/
def execSrcPendClr (a : Agent) (v : Word) (s : State) : Res :=
  if !s.live a then .next s else .next (s.srcPendClrWrite a v)

/-- The lowest source in the request set of CP `k` (R316). -/
def State.lowestReq (s : State) (k : Nat) : Option Nat :=
  s.ic.reqs.foldl (fun acc r =>
    if r.2 == k then
      match acc with
      | some m => some (min m r.1)
      | none => some r.1
    else acc) none

/-- A claimed source leaves every request set; its delivery can no longer be stopped (R316). -/
def State.takeClaim (s : State) (src k : Nat) : State :=
  let s1 := (s.withdraw src).setIst src { s.ist src with
    pend := (s.ist src).reRaised, reRaised := false, active := true, claimedBy := some k }
  { s1 with ic := { s1.ic with latches := s1.ic.latches.filter fun l => l.src != src } }

/-- A read of CLAIM[k] (R316): CP `k` takes the lowest source requested of it, or 1023 where there is none, or where WAKE_ANY woke
it and its own mask still holds (R322); any other reader reads 1023. -/
def State.claimRead (s : State) (k : Fin 4) (a : Agent) : Word × State :=
  if a != .cp k then (1023, s)
  else
    match if s.regB Reg.icCtrl 31 && s.regB (Reg.cpCtrl k.val) 31 then none else s.lowestReq k.val with
    | some src => (loW src, s.takeClaim src k.val)
    | none => (1023, s.bumpSat Reg.icCtrl 0 16 1)

/-- A write of COMPLETE[k] (R316): CP `k` completes a source it claimed; any other write is ignored. -/
def State.completeWrite (s : State) (k : Fin 4) (a : Agent) (v : Word) : State :=
  let src := fld v 0 10
  let e := s.ist src
  if a == .cp k && e.active && e.claimedBy == some k.val then
    s.setIst src { e with active := false, claimedBy := none }
  else s

/-- COMPLETE (R316); a VF's write lies outside its view (R47). -/
def execComplete (k : Fin 4) (a : Agent) (v : Word) (s : State) : Res :=
  if !s.live a then .next s
  else if a.isVf then .next (s.protoEventA a (Reg.icComplete k.val))
  else .next (s.completeWrite k a v)

/-- Requested sources that satisfy `p` keep PEND past the delivery that a mask came too late to stop (R318). -/
def State.keepPending (s : State) (p : Nat → Bool) : State :=
  { s with ic := { s.ic with ist := s.ic.ist.mapIf (fun n _ => p n) fun e => { e with reRaised := true } } }

/-- A write of CP_CTRL[k] (R318, Table 14-3): CP `k` sets its own MASK; a host's write is dropped and logged, another
processor's dropped without an event. Setting MASK stops the deliveries to it latched in this cycle; those of the four cycles
before are delivered once more. -/
def State.cpMaskWrite (s : State) (k : Fin 4) (a : Agent) (v : Word) : State :=
  if a == .cp k then
    let now := (s.ic.latches.map (·.src)).filter fun src => s.ic.reqs.contains (src, k.val)
    let s0 := if bit v 31 then now.foldl State.stopLatch s else s
    let s1 := if bit v 31 then s0.keepPending fun src => s0.ic.reqs.contains (src, k.val) && s0.justRequested src else s0
    s1.setRegB (Reg.cpCtrl k.val) 31 (bit v 31)
  else match a with
    | .fn _ => s.protoEventA a (Reg.cpCtrl k.val)
    | .cp _ => s

/-- CP_MASK_WRITE (R318). -/
def execCpMaskWrite (k : Fin 4) (a : Agent) (v : Word) (s : State) : Res :=
  if !s.live a then .next s else .next (s.cpMaskWrite k a v)

/-- The PF owns an entry of the group (R320). -/
def State.ownsInGroup (s : State) (g code : Nat) : Bool :=
  s.ic.ist.any fun e => e.1 / 16 == g && e.2.owner == code

/-- A write of GRP_HOLDOFF[g] (R320): USEC for windows that open later. -/
def State.holdoffWrite (s : State) (g : Nat) (a : Agent) (v : Word) : State :=
  if !a.isVf && ((a.isPf && s.ownsInGroup g a.code) || s.holds0 a) then
    s.setRegF (Reg.grpHoldoff g) 0 16 (fld v 0 16)
  else s.protoEventA a (Reg.grpHoldoff g)

/-- GRP_HOLDOFF_WRITE (R320). -/
def execGrpHoldoffWrite (g : Fin 64) (a : Agent) (v : Word) (s : State) : Res :=
  if !s.live a then .next s else .next (s.holdoffWrite g.val a v)

/-- A write of IC.WAKE_CTRL[n] by port n's PF sets its RW fields (Table 14-5). -/
def State.writeWakeCtrl (s : State) (n : Nat) (v : Word) : State :=
  let off := Reg.wakeCtrl n
  s.setReg off ((v &&& 0x9800003F) ||| (s.reg off &&& 0x20000000))

/-- A write of WAKE_CTRL[n] (R325, Table 14-5): FORCE raises a wake event on port n, from any PF of either port; the
other fields take effect only from port n's PF (log 14). -/
def State.wakeCtrlWrite (s : State) (n : Fin 2) (a : Agent) (v : Word) : State :=
  let own : Agent := .fn ⟨64 * n.val, by omega⟩
  if a.isVf || !bit v 30 && a != own then s.protoEventA a (Reg.wakeCtrl n.val)
  else
    let s1 := if a == own then s.writeWakeCtrl n.val v else s
    if bit v 30 then s1.wakePort n.val else s1

/-- FORCE (R325). -/
def execForce (n : Fin 2) (a : Agent) (v : Word) (s : State) : Res :=
  if !s.live a then .next s else .next (s.wakeCtrlWrite n a v)

/-- A caught event wakes the device (R321, R322): with WAKE_ANY any enabled source; natively one that would be deliverable to a
target whose own mask is clear: a processor's MASK, a function's MSI-X Function Mask. -/
def State.wakesIc (s : State) (src : Nat) : Bool :=
  let e := s.ist src
  e.enabled && (s.regB Reg.icCtrl 31 || !e.mask && !e.active && e.targets.any fun t =>
    t.valid && if t.isCp then !s.regB (Reg.cpCtrl t.vector) 31 else s.reachable t.fid && !(s.fn t.fid).funcMask)

/-- The chosen target of a source is a vector of this function. -/
def State.choosesFn (s : State) (src fid : Nat) : Bool :=
  match s.chosen (s.ist src) with
  | some (_, t) => !t.isCp && t.fid == fid
  | none => false

/-- A latched delivery goes to this function. -/
def Latch.isTo (l : Latch) (fid : Nat) : Bool :=
  match l.msg with
  | some (f, _) => f == fid
  | none => false

/-- The pending sources whose chosen target is a vector of this function are delivered, held or not (R324, R325). -/
def State.deliverTo (s : State) (fid : Nat) : State :=
  s.deliverWhere fun st src => st.deliverable src && st.choosesFn src fid

/-- IC_WAKE_RESTORE (R321): once the device is awake or a caught event wakes it, the retained state is back, windows whose end
has passed are closed, the caught events are applied, whatever is deliverable is delivered, and with it the sources of functions
that returned to D0 meanwhile (R325). -/
def execIcWakeRestore (s : State) : Res :=
  if !s.ic.gated || s.clk.inDeep && !s.ic.caught.any s.wakesIc then .next s
  else
    let caught := s.ic.caught
    let s1 := ({ s with ic := { s.ic with gated := false, caught := [], returned := [],
                                          wins := s.ic.wins.filter fun w => decide (s.now < w.2.2) } }).bumpSat Reg.restores 0 16 1
    let s2 := caught.foldl (fun st src => (st.raise src).rouse src) s1
    let s3 := s2.deliverWhere fun st src => st.deliverable src && !st.groupHolds (src / 16)
    .next (s.ic.returned.foldl State.deliverTo s3)

/-- D3HOT_ENTRY (R324): the function's held sources go out first and their messages are issued, then D3hot takes effect and the
configuration write completes; a gated IC is restored first. -/
def execD3hotEntry (f : Fid) (s : State) : Res :=
  if !s.fnLive f.val || s.ic.gated then .next s
  else
    let s1 := (s.deliverTo f.val).sendLatched fun l => l.isTo f.val
    let s2 := if (s1.fn f.val).d3hot then s1 else { s1 with clk := { s1.clk with quietSince := s1.now } }
    .next ((s2.setFn f.val { s2.fn f.val with d3hot := true }).emit (.configDone f.val))

/-- A function is in D0 again and its configuration write completes (R325): its pending sources are delivered at once, or at the
restore of a gated IC. -/
def State.returnFn (s : State) (fid : Nat) : State :=
  let s1 := s.setFn fid { s.fn fid with d3hot := false }
  let s2 := if s.ic.gated then { s1 with ic := { s1.ic with returned := s1.ic.returned ++ [fid] } } else s1.deliverTo fid
  s2.emit (.configDone fid)

/-- D0_RETURN (R325, R402); during DEEP_IDLE the write completes only once the exit has ended, so nothing happens before
DEEP_IDLE_EXIT. -/
def execD0Return (f : Fid) (s : State) : Res :=
  if !s.fnLive f.val || s.clk.inDeep then .next s else .next (s.returnFn f.val)

/-- MSI_X_MASK_WRITE (R315, R325): the host masks or unmasks a vector, or the function (`vector` none); PCIe
sends what the Pending Bit Array holds for vectors that are no longer masked. -/
def execMsiXMaskWrite (f : Fid) (vector : Option (Fin 2048)) (masked : Bool) (s : State) : Res :=
  if !s.fnLive f.val then .next s
  else
    let x := s.fn f.val
    let limit := if isPf f.val then 2048 else 16
    let y := match vector with
      | none => { x with funcMask := masked }
      | some v =>
        if v.val ≥ limit then x
        else if masked then { x with unmasked := x.unmasked.filter fun u => u != v.val }
        else { x with unmasked := if x.unmasked.contains v.val then x.unmasked else x.unmasked ++ [v.val] }
    let goes := if y.funcMask then [] else y.pba.filter fun v => y.unmasked.contains v
    let s1 := s.setFn f.val { y with pba := y.pba.filter fun v => !goes.contains v }
    .next (goes.foldl (fun st v => st.emitMsix f.val v) s1)

end Sys2Proof.Machine
end

