-- ==== Sys2Proof/Machine/Mbx.lean ====
section
/-! DEFINITION. Mailboxes (R55–R60): two ends with a queue of eight words each way, attach and detach, the
empty interrupt, abort notices and the crossed-wait detector. -/

namespace Sys2Proof.Machine

/-- A mailbox channel. -/
def State.box (s : State) (n : Nat) : Mbx := s.mbx.get n (Mbx.reset n)

/-- The state with a mailbox channel replaced. -/
def State.setBox (s : State) (n : Nat) (b : Mbx) : State := { s with mbx := s.mbx.put n b }

/-- End `e` of a channel. -/
def Mbx.endOf (b : Mbx) (e : Bool) : MbxEnd := if e then b.e1 else b.e0

/-- The channel with end `e` replaced. -/
def Mbx.setEnd (b : Mbx) (e : Bool) (x : MbxEnd) : Mbx := if e then { b with e1 := x } else { b with e0 := x }

/-- The end an owner code holds. -/
def Mbx.holds? (b : Mbx) (code : Nat) : Option Bool :=
  if b.e0.owner = code then some false else if b.e1.owner = code then some true else none

/-- The interrupt source of an end (Table 14-1). -/
def endSource (n : Nat) (e : Bool) : Nat := if e then 896 + n else 832 + n

/-- The detector's arming conditions (R59). -/
def Mbx.armed (b : Mbx) : Bool :=
  b.e0.owner != 0 && b.e1.owner != 0 && b.e0.waitEmpty && b.e1.waitEmpty && !b.e0.queue.isEmpty && !b.e1.queue.isEmpty

/-- Key of the W1C bits of an end of a channel (R5): its CH_STATUS offset, and the end. -/
def endKey (n : Nat) (e : Bool) : Nat := Reg.chStatus n + (if e then 2 else 1)

/-- MBX.CROSS_TICKS.TICKS. -/
def State.crossTicks (s : State) : Nat := s.regF Reg.crossTicks 0 24

/-- The detector after a change of the channel: a window starts when the conditions come to hold, or anew in
the next tick when `restart` (log 55); it stops when they fail, and a detector that has fired waits for that. A window
whose end tick has come is past: only its notice is still to be given, and neither a pop on that tick nor anything
later moves it (R59). -/
def State.settleBox (s : State) (n : Nat) (restart : Bool) (b : Mbx) : State :=
  let past := match (s.box n).window with
    | some t => s.crossTicks != 0 && decide (t + s.crossTicks ≤ s.now)
    | none => false
  let w :=
    if past then { b with window := (s.box n).window }
    else if !b.armed then { b with window := none, fired := false }
    else if b.fired then { b with window := none }
    else if b.window.isNone then { b with window := some s.now }
    else if restart then { b with window := some (s.now + 1) }
    else b
  s.setBox n w

/-- A refused attach: CH_STATUS.ATTACH_FAIL of the writer. -/
def Mbx.refuseAttach (b : Mbx) (code : Nat) : Mbx :=
  { b with attachFail := if b.attachFail.contains code then b.attachFail else b.attachFail ++ [code] }

/-- ATTACH: end 0 if free, otherwise end 1; refused where both are held or the writer holds one (R55). The
last attach was then not refused, so ATTACH_FAIL clears (Table 03-12). -/
def State.attach (s : State) (n : Nat) (code : Nat) : State :=
  let b := s.box n
  if (b.holds? code).isSome || (b.e0.owner != 0 && b.e1.owner != 0) then
    (s.settleBox n false (b.refuseAttach code)).mark (agentKey code (Reg.chStatus n)) 0x01000000
  else
    let e := b.e0.owner != 0
    s.settleBox n false ({ b with attachFail := b.attachFail.filter fun c => c != code }.setEnd e { MbxEnd.reset with owner := code })

/-- The end `e` goes: both queues clear, it is freed, and the surviving end takes the abort notice (R58). -/
def State.dropEnd (s : State) (n : Nat) (e : Bool) (cause : Nat) : State :=
  let b := s.box n
  let other := b.endOf (!e)
  let cleared := b.setEnd e MbxEnd.reset
  if other.owner = 0 then s.settleBox n true (cleared.setEnd (!e) { other with queue := [] })
  else
    let o := { other with queue := [], aborted := true, abortCause := cause, discarded := other.queue.length, waitEmpty := false }
    ((s.settleBox n true (cleared.setEnd (!e) o)).mark (endKey n (!e)) 0x10000000).raise (endSource n (!e))

/-- DETACH of the writer's end (R58); end 1 of MBX[0] is held permanently (R55). -/
def State.detach (s : State) (n : Nat) (code : Nat) : State :=
  match (s.box n).holds? code with
  | some e => if n = 0 && e then s else s.dropEnd n e 2
  | none => s

/-- WAIT_EMPTY on the writer's end: with its outbound queue empty the interrupt is raised at once (R57). -/
def State.waitEmpty (s : State) (n : Nat) (code : Nat) : State :=
  let b := s.box n
  match b.holds? code with
  | some e =>
    let x := b.endOf e
    if x.queue.isEmpty then (s.settleBox n false (b.setEnd e { x with waitEmpty := false })).raise (endSource n e)
    else s.settleBox n false (b.setEnd e { x with waitEmpty := true })
  | none => s

/-- A push onto the writer's outbound queue (R56, R57). -/
def State.push (s : State) (n : Nat) (code : Nat) (v : Word) : Option State :=
  let b := s.box n
  match b.holds? code with
  | some e =>
    let x := b.endOf e
    if x.queue.length ≥ 8 then some ((s.setBox n (b.setEnd e { x with overflow := true })).mark (endKey n e) 0x04000000)
    else
      let s1 := s.settleBox n false (b.setEnd e { x with queue := x.queue ++ [v] })
      some (if x.queue.isEmpty && (b.endOf (!e)).dataIe then s1.raise (endSource n (!e)) else s1)
  | none => none

/-- A pop from the reader's inbound queue (R56, R57): the word and the state. -/
def State.pop (s : State) (n : Nat) (code : Nat) : Option (Word × State) :=
  let b := s.box n
  match b.holds? code with
  | some e =>
    let other := b.endOf (!e)
    match other.queue with
    | [] => some (0, (s.setBox n (b.setEnd e { b.endOf e with underflow := true })).mark (endKey n e) 0x02000000)
    | w :: r =>
      let done := r.isEmpty && other.waitEmpty
      let s1 := s.settleBox n true (b.setEnd (!e) { other with queue := r, waitEmpty := other.waitEmpty && !r.isEmpty })
      some (w, if done then s1.raise (endSource n (!e)) else s1)
  | none => none

/-- A write of MBX.CH_CTRL[n] (Table 03-11). ATTACH is taken first, then DATA_IE and WAIT_EMPTY act on the end
the writer holds, and DETACH last (log 23). -/
def State.chCtrlWrite (s : State) (n : Nat) (a : Agent) (v : Word) : State :=
  let code := a.code
  let s1 := if bit v 31 then s.attach n code else s
  match (s1.box n).holds? code with
  | none => if bit v 31 then s1 else s1.protoEventA a (Reg.chCtrl n)
  | some e =>
    let b := s1.box n
    let s2 := s1.setBox n (b.setEnd e { b.endOf e with dataIe := bit v 25 })
    let s3 := if bit v 26 then s2.waitEmpty n code else s2
    if bit v 30 then s3.detach n code else s3

/-- CH_CTRL as the reader sees it. -/
def State.chCtrlRead (s : State) (n code : Nat) : Word :=
  let b := s.box n
  match b.holds? code with
  | some e => at_ 26 (b2n (b.endOf e).waitEmpty) ||| at_ 25 (b2n (b.endOf e).dataIe)
  | none => 0

/-- CH_STATUS as the reader sees it (Table 03-12). -/
def State.chStatusRead (s : State) (n code : Nat) : Word :=
  let b := s.box n
  let fail := at_ 24 (b2n (b.attachFail.contains code))
  match b.holds? code with
  | none => fail
  | some e =>
    let x := b.endOf e
    let o := b.endOf (!e)
    fail ||| at_ 31 1 ||| at_ 30 (b2n e) ||| at_ 29 (b2n (o.owner != 0)) ||| at_ 28 (b2n x.aborted) |||
      at_ 27 (b2n x.crossed) ||| at_ 26 (b2n x.overflow) ||| at_ 25 (b2n x.underflow) ||| at_ 22 x.abortCause |||
      at_ 18 x.discarded ||| at_ 8 o.owner ||| at_ 4 x.queue.length ||| at_ 0 o.queue.length

/-- A write of MBX.CH_STATUS[n]: each 1 clears its W1C bit at the writer's end (Table 03-12), but for a bit that the
device set in this cycle (R5). Clearing ABORTED leaves its cause and count, which are RO. A writer that holds no end is
logged, as its pushes and pops are; its reads of CH_CTRL and CH_STATUS, which Table 03-12 answers, are not (R56;
DESIGN CHOICE, log 63). -/
def State.chStatusWrite (s : State) (n : Nat) (a : Agent) (v0 : Word) : State :=
  let b0 := s.box n
  let v1 := v0 &&& ~~~(s.freshBits (agentKey a.code (Reg.chStatus n)))
  let v := match b0.holds? a.code with
    | some e => v1 &&& ~~~(s.freshBits (endKey n e))
    | none => v1
  let b := if bit v 24 then { b0 with attachFail := b0.attachFail.filter fun c => c != a.code } else b0
  match b.holds? a.code with
  | none => if b0.attachFail.contains a.code then s.setBox n b else s.protoEventA a (Reg.chStatus n)
  | some e =>
    let x := b.endOf e
    s.setBox n (b.setEnd e { x with aborted := x.aborted && !bit v 28, crossed := x.crossed && !bit v 27,
                                    overflow := x.overflow && !bit v 26, underflow := x.underflow && !bit v 25 })

/-- An end has an unmasked interrupt condition (R60): a word is there with DATA_IE, or a notice stands
(log 24). -/
def Mbx.condition (b : Mbx) (e : Bool) : Bool :=
  let x := b.endOf e
  (x.dataIe && !(b.endOf (!e)).queue.isEmpty) || x.aborted || x.crossed

/-- MBX.PEND_LO and PEND_HI for a reader (R60). -/
def State.mbxPend (s : State) (code half : Nat) : Word :=
  BitVec.ofNat 32 (((List.range 32).map fun i =>
    let b := s.box (32 * half + i)
    match b.holds? code with
    | some e => if b.condition e then 2 ^ i else 0
    | none => 0).foldl (· + ·) 0)

/-- MBX.ENDS_FREE (Table 19-8). -/
def State.endsFree (s : State) : Nat :=
  ((List.range 64).filter fun n => (s.box n).e0.owner == 0 && (s.box n).e1.owner == 0).length

/-- ATTACH (R55). -/
def execAttach (n : Fin 64) (a : Agent) (s : State) : Res :=
  if !s.live a then .next s else .next (s.attach n.val a.code)

/-- DETACH (R58). An endpoint that holds no end is logged as R56 logs its accesses. -/
def execDetach (n : Fin 64) (a : Agent) (s : State) : Res :=
  if !s.live a then .next s
  else if ((s.box n.val).holds? a.code).isNone then .next (s.protoEventA a (Reg.chCtrl n.val))
  else .next (s.detach n.val a.code)

/-- WAIT_EMPTY (R57). -/
def execWaitEmpty (n : Fin 64) (a : Agent) (s : State) : Res :=
  if !s.live a then .next s
  else if ((s.box n.val).holds? a.code).isNone then .next (s.protoEventA a (Reg.chCtrl n.val))
  else .next (s.waitEmpty n.val a.code)

/-- MBX_PUSH (R56). -/
def execMbxPush (n : Fin 64) (a : Agent) (v : Word) (s : State) : Res :=
  if !s.live a then .next s
  else match s.push n.val a.code v with
    | some s1 => .next s1
    | none => .next (s.protoEventA a (Reg.outWord n.val))

/-- MBX_POP (R56). -/
def execMbxPop (n : Fin 64) (a : Agent) (s : State) : Res :=
  if !s.live a then .next s
  else match s.pop n.val a.code with
    | some (w, s1) => .next (s1.emit (.readWord (Reg.inWord n.val) w))
    | none => .next ((s.protoEventA a (Reg.inWord n.val)).emit (.readWord (Reg.inWord n.val) 0))

/-- CROSSED_WAIT (R59): the window has passed without a restart; CROSSED is set at both ends and both
interrupts are raised. -/
def execCrossedWait (n : Fin 64) (s : State) : Res :=
  let b := s.box n.val
  match b.window with
  | some t =>
    if s.crossTicks ≠ 0 && decide (t + s.crossTicks ≤ s.now) then
      let b1 := { b with window := none, fired := b.armed, e0 := { b.e0 with crossed := b.e0.owner != 0 },
                         e1 := { b.e1 with crossed := b.e1.owner != 0 } }
      .next (((((s.setBox n.val b1).mark (endKey n.val false) 0x08000000).mark (endKey n.val true) 0x08000000).raise
        (832 + n.val)).raise (896 + n.val))
    else .next s
  | none => .next s

/-- Both ends of a channel go at once: both queues clear and no end survives to take a notice. -/
def Mbx.emptied (b : Mbx) : Mbx := { b with e0 := MbxEnd.reset, e1 := MbxEnd.reset, window := none, fired := false }

/-- Every end held by owner codes that satisfy `p` is dropped with a cause, and their ATTACH_FAIL bits return to reset
(R62). Where one reset takes both ends of a channel, neither survives: no notice is made and no source raised (DEDUCED
from R58's 'the surviving end', log 63). -/
def State.dropEnds (s : State) (p : Nat → Bool) (cause : Nat) : State :=
  (s.mbx.map (·.1)).foldl (fun st n =>
    let b := st.box n
    let hit (x : MbxEnd) := x.owner != 0 && p x.owner
    let s0 := st.setBox n { b with attachFail := b.attachFail.filter fun c => !p c }
    if hit b.e0 && hit b.e1 then s0.setBox n (s0.box n).emptied
    else if hit b.e0 then s0.dropEnd n false cause
    else if hit b.e1 then s0.dropEnd n true cause
    else s0) s

end Sys2Proof.Machine
end

