-- ==== Sys2Proof/Machine/Windows.lean ====
section
/-! DEFINITION. The capture windows of Table 19-2: a select register copies one object into the reader's own
copy (R419), and the Queue Table, the Interrupt Source Table and the DMA channels are written back by a commit
(R86–R89, R301, R313). -/

namespace Sys2Proof.Machine

/-- A window copy that was never captured (R419). -/
def Window.reset : Window := { sel := 0, words := [] }

/-- An agent's copy behind a select register. -/
def State.window (s : State) (code off : Nat) : Window := (s.agent code).win.get off Window.reset

/-- The state with an agent's copy replaced. -/
def State.setWindow (s : State) (code off : Nat) (w : Window) : State :=
  let a := s.agent code
  s.setAgent code { a with win := a.win.put off w }

/-- Word `i` of an agent's copy. -/
def State.winWord (s : State) (code off i : Nat) : Word := wd (s.window code off).words i

/-- The agent may select an object of function `owner`: itself or, for a PF, its VFs; a control processor
selects any (log 25). -/
def maySelect (a : Agent) (owner : Nat) : Bool :=
  match a with
  | .fn f => mine f.val owner
  | .cp _ => true

/-- The agent may read an object of function `owner` in a window every PF may read. -/
def mayRead (a : Agent) (owner : Nat) : Bool :=
  match a with
  | .fn f => isPf f.val || f.val == owner
  | .cp _ => true

-- Session, snapshot and statistics records ------------------------------------------------------------

/-- SESS_SEL (R419, Table 19-3). -/
def State.sessSel (s : State) (a : Agent) (v : Word) : State :=
  let i := fld v 0 9
  let x := s.session i
  s.setWindow a.code Reg.sessSel
    (if x.kind = 0 then ⟨at_ 30 2 ||| at_ 0 i, zeros 64⟩ else ⟨at_ 0 i, x.words⟩)

/-- STATE and words of a record selection (R34, Table 02-5), from the bank that is current in this cycle (R25). While the check of a
re-enable runs, EN reads 1 (R96) and STATE shows 0, though the record is still the one its last crossing left (DESIGN CHOICE,
log 89). -/
def State.recordSel (s : State) (a : Agent) (v : Word) (stat : Bool) : Window :=
  let i := fld v 0 9
  let k := fld v 16 3
  let x := s.session i
  let sel := at_ 16 k ||| at_ 0 i
  if !mayRead a x.owner || (a.isVf && !x.claimed) then ⟨sel ||| at_ 30 3, zeros 16⟩
  else if decide (x.steps.length ≤ k) || !x.claimed || !x.everEnabled || (stat && !x.isEnc) then
    ⟨sel ||| at_ 30 2, zeros 16⟩
  else ⟨sel ||| at_ 30 (if x.en then 0 else 1), (if stat then (x.shown s.cyc).stat.get k (zeros 16) else (x.shown s.cyc).snapRec k)⟩

-- Flows, buffers, key slots, fault history ---------------------------------------------------------------

/-- Payload bytes committed and not sent, and free extents, of a flow (Table 11-4). -/
def Flow.committedBytes (f : Flow) : Nat :=
  (f.frames.map fun o => ((o.packets.drop o.next).map fun p => p.2.length).foldl (· + ·) 0).foldl (· + ·) 0 +
    (match f.head with | some h => h.payload.length | none => 0) +
    (match f.sending with | some p => p.packet.payload.length | none => 0)

/-- Data extents of a flow (R243). -/
def Flow.dataExtents (f : Flow) : Nat := imageFlightMib f.image * 16 - 1

/-- Bytes of a committed frame that the head landing has taken (R247). -/
def OutFrame.taken (o : OutFrame) : Nat := ((o.packets.take o.next).map fun p => p.2.length).foldl (· + ·) 0

/-- Extents of a frame whose last byte the head landing has not taken: each stream fills extents of 64 KiB of
its own (R243, R244, R247). -/
def OutFrame.holding (o : OutFrame) : List Nat :=
  ((o.streams.zip o.chains).foldl (fun (acc : Nat × List Nat) (n, chain) =>
    (acc.1 + n, acc.2 ++ (chain.zipIdx.filter fun e => decide (o.taken < acc.1 + min n (65536 * (e.2 + 1)))).map (·.1)))
    (0, [])).2

/-- Data extents held by committed frames; PACE figures exclude uncommitted data (R31). -/
def Flow.heldExtents (f : Flow) : Nat := (f.frames.flatMap OutFrame.holding).length

/-- Committed frames that are not wholly sent. -/
def Flow.committedFrames (f : Flow) : Nat :=
  f.frames.length + (match f.sending with | some p => b2n p.packet.last | none => 0)

/-- The flow as a read of this cycle sees it: a frame that crosses in the cycle is not committed yet (R25). -/
def Flow.seen (f : Flow) (cyc : Nat) : Flow := { f with frames := f.frames.filter fun o => decide (o.since < cyc) }

/-- The status words of a flow (Table 11-4); SEQ is that of the last encrypted packet. -/
def Flow.words (f : Flow) : List Word :=
  [at_ 30 f.state ||| at_ 27 f.haltCause ||| at_ 0 f.prod, at_ 0 f.cons, loW f.sent, loW f.bytesSent,
   hiW f.bytesSent, loW f.committedBytes,
   at_ 16 (min 65535 f.committedFrames) ||| at_ 0 (f.dataExtents - f.heldExtents), loW f.lost,
   at_ 16 f.overflows ||| at_ 0 f.waits, loW f.discarded, loW f.tokens, hiW f.tokens, loW f.seq, hiW f.seq,
   at_ 0 f.lastFrame, 0]

/-- FLOW_SEL (R262, Table 11-3). -/
def State.flowSel (s : State) (a : Agent) (v : Word) : State :=
  let i := fld v 0 12
  let f := s.flow i
  let x := s.session (i / 8)
  s.setWindow a.code Reg.flowSel
    (if !mayRead a x.owner || (a.isVf && !x.claimed) then ⟨at_ 30 3 ||| at_ 0 i, zeros 16⟩
     else if i % 8 ≥ 6 ∨ f.image.isEmpty then ⟨at_ 30 2 ||| at_ 0 i, zeros 16⟩
     else ⟨at_ 0 i, (f.seen s.cyc).words⟩)

/-- RPL_SEL (R281, R419): the entry of the Retired Page List, its run and first page; none reads 0. -/
def State.rplSel (s : State) (a : Agent) (v : Word) : State :=
  s.setWindow a.code Reg.rplSel ⟨v &&& 0xFFF, [match s.mc.rpl[fld v 0 12]? with
    | some (first, len) => at_ 20 (len - 1) ||| at_ 0 first
    | none => 0]⟩

/-- The words of a Buffer Table entry (Table 13-5). -/
def Buf.words (b : Buf) : List Word :=
  let owner (k : Nat) : Word := match b.owners[k]? with
    | some o => at_ (8 * k) (128 + o)
    | none => 0
  [at_ 30 b.state ||| at_ 27 b.owners.length ||| at_ 0 b.gen, owner 0 ||| owner 1 ||| owner 2 ||| owner 3,
   loW b.pins, 0]

/-- BT_SEL (R297, Table 13-4). -/
def State.btSel (s : State) (a : Agent) (v : Word) : State :=
  let sel := v &&& 0xFFFFF000
  let b := s.buf (handleKey v)
  s.setWindow a.code Reg.btSel
    (if s.poolCount (fld v 29 3) ≤ fld v 12 17 then ⟨sel ||| 2, zeros 4⟩
     else if a.isVf && !(b.owners.contains ((a.fid?).getD 0)) then ⟨sel ||| 3, zeros 4⟩
     else ⟨sel, b.words⟩)

/-- The words of a key slot (Table 16-7). -/
def KeySlot.words (k : KeySlot) : List Word :=
  [at_ 30 k.state ||| at_ 28 k.usage ||| at_ 20 k.owner ||| at_ 0 k.holds, k.keyId, loW k.seq, hiW k.seq]

/-- KEY_SLOT_SEL (R362). An EMPTY slot is nobody's and reads as not accessible to a function (log 25). -/
def State.keySlotSel (s : State) (a : Agent) (v : Word) : State :=
  let i := fld v 0 7
  let k := s.sec.slots.get i KeySlot.reset
  s.setWindow a.code Reg.keySlotSel
    (if (k.state != 0 || a.isCp) && maySelect a k.owner then ⟨at_ 0 i, k.words⟩ else ⟨at_ 30 3 ||| at_ 0 i, zeros 4⟩)

/-- The words of a history entry (Table 17-4). -/
def Hist.words (h : Hist) : List Word :=
  [loW h.seq, loW h.time, hiW h.time,
   at_ 30 h.cls ||| at_ 29 (b2n h.injected) ||| at_ 28 (b2n h.escalated) ||| at_ 27 (b2n h.acked) |||
     (match h.session with | some i => at_ 26 1 ||| at_ 16 i | none => 0) ||| at_ 0 h.unit,
   at_ 16 h.code ||| at_ 8 h.reaction ||| (match h.fid with | some f => at_ 7 1 ||| at_ 0 f | none => 0),
   loW h.detail, hiW h.detail, at_ 24 h.outcome ||| at_ 0 h.repeats]

/-- HIST_SEL (R380, Table 17-10). -/
def State.histSel (s : State) (a : Agent) (v : Word) : State :=
  let i := fld v 0 4
  s.setWindow a.code Reg.histSel
    (match s.fc.hist.find i with
     | none => ⟨at_ 30 2 ||| at_ 0 i, zeros 8⟩
     | some h => if a.isVf && h.fid != a.fid? then ⟨at_ 30 3 ||| at_ 0 i, zeros 8⟩ else ⟨at_ 0 i, h.words⟩)

-- Commits ------------------------------------------------------------------------------------------------

/-- A field of a table entry: word, lowest bit, width. -/
structure EntryField where
  word : Nat
  lo : Nat
  len : Nat
deriving DecidableEq, Repr

/-- A field's value in an entry's words. -/
def EntryField.of (f : EntryField) (ws : List Word) : Nat := fld (wd ws f.word) f.lo f.len

/-- Some field of the list differs between two entries. -/
def differs (fs : List EntryField) (x y : List Word) : Bool := fs.any fun f => f.of x != f.of y

/-- Cause 6: the copy would write back another value to a field that the first commit of the tie changed,
`before` to `after` (R88). -/
def undoes (fs : List EntryField) (first : Option (List Word × List Word)) (copy : List Word) : Bool :=
  match first with
  | none => false
  | some (before, after) => fs.any fun f => f.of before != f.of after && f.of copy != f.of after

/-- The outcome of a commit in the writer's status (Table 04-12): 0 when accepted. -/
def State.setCommit (s : State) (code off cause : Nat) : State :=
  let a := s.agent code
  if cause = 0 then s.setAgent code { a with status := a.status.put off 0 }
  else (s.setAgent code { a with status := a.status.put off (at_ 31 1 ||| at_ 28 cause) }).mark (agentKey code off) 0x80000000

-- Queue Table ----------------------------------------------------------------------------------------------

/-- A Queue Table entry. -/
def State.queue (s : State) (q : Nat) : Queue := s.qs.tbl.get q Queue.reset

/-- The state with a Queue Table entry replaced. -/
def State.setQueue (s : State) (q : Nat) (x : Queue) : State := { s with qs := { s.qs with tbl := s.qs.tbl.put q x } }

/-- Entries of a ring. -/
def Queue.size (x : Queue) : Nat := 2 ^ x.logSize

/-- Packets of a queue fetched and not completed, oldest first. -/
def State.packetsOf (s : State) (q : Nat) : List Packet := s.qs.packets.filter fun p => p.q == q

/-- The ring of a completion queue is full (R70). -/
def Queue.full (x : Queue) : Bool := x.en && x.ty == 2 && (x.tail + 1) % x.size == x.head

/-- Dispatch of the queue waits on a FENCE: its oldest undispatched packet carries FENCE and an earlier one
has not completed (R67). -/
def State.stalled (s : State) (q : Nat) : Bool :=
  let ps := s.packetsOf q
  match ps.find? fun p => p.state == .fetched with
  | some p => p.fence && ps.any fun r => decide (r.id < p.id)
  | none => false

/-- The words of a Queue Table entry (Table 04-9). -/
def State.queueWords (s : State) (q : Nat) : List Word :=
  let x := s.queue q
  [at_ 31 (b2n x.en) ||| at_ 29 x.ty ||| at_ 28 (b2n x.mem) ||| at_ 24 x.logSize ||| at_ 17 x.fid ||| at_ 0 x.dbSlot,
   loW x.base, hiW x.base, at_ 16 x.head ||| at_ 0 x.tail,
   at_ 31 (b2n x.phase) ||| at_ 30 (b2n x.full) ||| at_ 29 (b2n (s.stalled q)) ||| at_ 16 x.defaultCq |||
     at_ 15 (b2n x.fetchErr) ||| at_ 0 x.irqSrc,
   at_ 25 (b2n x.sessLock) ||| at_ 16 x.sessBind ||| at_ 8 x.weight,
   at_ 16 (s.packetsOf q).length ||| at_ 0 x.dbDrops, 0]

/-- The RW fields of a Queue Table entry: EN, WEIGHT, SESS_LOCK and SESS_BIND, and the others (R87). -/
def queueLive : List EntryField := [⟨0, 31, 1⟩, ⟨5, 8, 8⟩, ⟨5, 25, 1⟩, ⟨5, 16, 9⟩]
def queueSetup : List EntryField :=
  [⟨0, 29, 2⟩, ⟨0, 28, 1⟩, ⟨0, 24, 4⟩, ⟨0, 17, 7⟩, ⟨0, 0, 9⟩, ⟨1, 0, 32⟩, ⟨2, 0, 32⟩, ⟨4, 16, 13⟩, ⟨4, 0, 10⟩]

/-- RW bits of QT.DATA[w]. -/
def queueMasks : List Word := [0xFFFE01FF, allW, allW, 0, 0x1FFF03FF, 0x03FFFF00, 0, 0]

/-- The entry with the RW fields of a copy. -/
def Queue.fromWords (x : Queue) (ws : List Word) : Queue :=
  { x with en := bit (wd ws 0) 31, ty := fld (wd ws 0) 29 2, mem := bit (wd ws 0) 28, logSize := fld (wd ws 0) 24 4,
           fid := fld (wd ws 0) 17 7, dbSlot := fld (wd ws 0) 0 9, base := pair64 (wd ws 2) (wd ws 1),
           defaultCq := fld (wd ws 4) 16 13, irqSrc := fld (wd ws 4) 0 10, sessLock := bit (wd ws 5) 25,
           sessBind := fld (wd ws 5) 16 9, weight := fld (wd ws 5) 8 8 }

/-- The agent may select the queue (R86). -/
def State.queueSelectable (s : State) (a : Agent) (q : Nat) : Bool :=
  let x := s.queue q
  match a with
  | .fn f => (x.ty != 0 && mine f.val x.fid) || (x.ty == 0 && isPf f.val)
  | .cp _ => true

/-- The buffer that holds a device address. -/
def State.bufAt (s : State) (a : Nat) : Option Nat :=
  (List.range 8).findSome? fun p =>
    if s.poolBase p ≤ a ∧ a < s.poolBase p + s.poolCount p * poolSize p then
      some (bufKey p ((a - s.poolBase p) / poolSize p))
    else none

/-- Every byte of the range lies in allocated buffers that the function owns; buffers are multiples of 512
bytes (Table 13-1). -/
def State.rangeOwned (s : State) (fid a n : Nat) : Bool :=
  n == 0 || (List.range ((a + n - 1) / 512 - a / 512 + 1)).all fun i =>
    match s.bufAt ((a / 512 + i) * 512) with
    | some k => s.bpm.live && (s.buf k).state == 1 && (s.buf k).owners.contains fid
    | none => false

/-- The queue is an enabled completion queue of the function. -/
def State.cqOk (s : State) (q fid : Nat) : Bool :=
  let x := s.queue q
  x.en && x.ty == 2 && x.fid == fid

/-- Cause 5 of R87 on a bound entry. -/
def State.queueBad (s : State) (q : Nat) (x : Queue) : Bool :=
  x.ty == 3 || decide (x.logSize < 4) || x.base % 4096 != 0 ||
    (x.mem && !s.rangeOwned x.fid x.base (x.size * (if x.ty = 1 then 64 else 32))) ||
    (!isPf x.fid && s.qs.tbl.any fun e => e.1 != q && e.2.ty != 0 && e.2.fid == x.fid && e.2.dbSlot == x.dbSlot)

/-- The cause for which a commit is refused, the lowest number where several hold, 0 when it is accepted (R87, R88; DESIGN CHOICE,
log 95). -/
def State.queueCause (s : State) (a : Agent) (q : Nat) (copy : List Word)
    (first : Option (List Word × List Word)) : Nat :=
  let cur := s.queueWords q
  let old := s.queue q
  let new := old.fromWords copy
  let bind :=
    match a with
    | .fn f => if isPf f.val then new.ty == 0 || mine f.val new.fid else new.fid == old.fid && new.dbSlot == old.dbSlot
    | .cp _ => true
  if !s.queueSelectable a q then 1
  else if !bind then 2
  else if (old.en || new.en) && differs queueSetup cur copy then 3
  else if new.en && !old.en && new.ty == 1 && !s.cqOk new.defaultCq new.fid then 4
  else if s.queueBad q new then 5
  else if undoes (queueLive ++ queueSetup) first copy then 6
  else 0

/-- The effects of EN (R89): setting it starts the ring afresh; clearing it clears FETCH_ERR (R441). -/
def Queue.enable (old new : Queue) : Queue :=
  if new.en && !old.en then
    { new with head := 0, tail := 0, phase := if new.ty = 2 then true else new.phase, fetchErr := false }
  else if !new.en then { new with fetchErr := false }
  else new

/-- The packet number under which the output of an entry of a ring in device memory is undefined before its fetch (R33). -/
def ringId (q slot : Nat) : Nat := 2 ^ 40 + q * 65536 + slot

/-- Entries of a queue's ring that were not fetched are no longer submitted: it is disabled. -/
def State.dropRing (s : State) (q : Nat) : State :=
  { s with mem := { s.mem with undef := s.mem.undef.filter fun u => u.frame / 4096 / 65536 != ringId q 0 / 65536 } }

/-- One commit of the Queue Table, with the outcome it leaves and whether it was accepted. -/
def State.queueCommit (s : State) (a : Agent) (first : Option (List Word × List Word)) : State × Bool :=
  let w := s.window a.code Reg.qtSel
  let q := fld w.sel 0 13
  let cause := s.queueCause a q w.words first
  let s1 := s.setCommit a.code Reg.qtStatus cause
  if cause = 0 then
    let old := s.queue q
    let new := old.enable (old.fromWords w.words)
    (if new.en && old.en then s1.setQueue q new else (s1.setQueue q new).dropRing q, true)
  else (s1, false)

/-- QT_SEL: the entry is copied, zeros where it is not selectable (R86). -/
def State.qtSel (s : State) (a : Agent) (v : Word) : State :=
  let q := fld v 0 13
  s.setWindow a.code Reg.qtSel ⟨at_ 0 q, if s.queueSelectable a q then s.queueWords q else zeros 8⟩

-- Interrupt Source Table -------------------------------------------------------------------------------------

/-- The words of a source's entry (Table 14-2). -/
def IstEntry.words (e : IstEntry) : List Word :=
  (at_ 31 (b2n e.en) ||| at_ 30 (b2n e.mask) ||| at_ 29 (b2n e.pend) ||| at_ 28 (b2n e.active) |||
    at_ 26 e.rrNext ||| at_ 0 e.owner) ::
  e.targets.map fun t => at_ 31 (b2n t.valid) ||| at_ 30 (b2n t.isCp) ||| at_ 11 t.fid ||| at_ 0 t.vector

/-- RW fields of an entry. -/
def istFields : List EntryField :=
  [⟨0, 31, 1⟩, ⟨0, 30, 1⟩, ⟨0, 0, 8⟩] ++
    [1, 2, 3, 4].flatMap fun w => [⟨w, 31, 1⟩, ⟨w, 30, 1⟩, ⟨w, 11, 7⟩, ⟨w, 0, 11⟩]

/-- Bits of IST_DATA[w] that a write sets in the copy: the RW fields and the reserved bits, which cause 5
judges; and the bits that read back. -/
def istMasks : List Word := [0xC3FFFFFF, allW, allW, allW, allW]
def istReadMasks : List Word := [0xFC0000FF, 0xC003FFFF, 0xC003FFFF, 0xC003FFFF, 0xC003FFFF]

/-- A target of a copy. -/
def istTarget (w : Word) : IstTarget :=
  { valid := bit w 31, isCp := bit w 30, fid := fld w 11 7, vector := fld w 0 11 }

/-- The entry with the RW fields of a copy; PEND, ACTIVE and RR_NEXT are never committed (R313). -/
def IstEntry.fromWords (e : IstEntry) (ws : List Word) : IstEntry :=
  { e with en := bit (wd ws 0) 31, mask := bit (wd ws 0) 30, owner := fld (wd ws 0) 0 8,
           targets := [1, 2, 3, 4].map fun i => istTarget (wd ws i) }

/-- The owner code names function `f` or, where `f` is a PF, one of its VFs. -/
def ownerMine (f code : Nat) : Bool := decide (1 ≤ code) && decide (code ≤ 0x80) && mine f (code - 1)

/-- The agent may select the source (R313); index 1023 has no object (R419). -/
def State.istSelectable (s : State) (a : Agent) (n : Nat) : Bool :=
  n != 1023 &&
    match a with
    | .fn f => let o := (s.ist n).owner
               if isPf f.val then o == 0 || ownerMine f.val o else o == f.val + 1
    | .cp _ => true

/-- A target's vector lies within its function's vectors, or its processor exists (R313). -/
def IstTarget.inRange (t : IstTarget) : Bool :=
  if t.isCp then decide (t.vector < 4) else decide (t.vector < (if isPf t.fid then 2048 else 16))

/-- The cause for which a commit is refused, 0 when it is accepted (R313). -/
def State.istCause (s : State) (a : Agent) (n : Nat) (copy : List Word)
    (first : Option (List Word × List Word)) : Nat :=
  let old := s.ist n
  let new := old.fromWords copy
  let used := new.targets.filter fun t => t.valid
  let owner :=
    match a with
    | .fn f => if isPf f.val then new.owner == 0 || ownerMine f.val new.owner else new.owner == old.owner
    | .cp _ => true
  if !s.istSelectable a n then 1
  else if !owner then 2
  else if used.any fun t => (t.isCp && !a.isCp) || !t.inRange then 3
  else if used.any (fun t => !t.isCp && t.fid + 1 != new.owner) && !s.holds0 a then 4
  else if fld (wd copy 0) 8 18 != 0 || [1, 2, 3, 4].any (fun i => fld (wd copy i) 18 12 != 0) then 5
  else if undoes istFields first copy then 6
  else 0

/-- What a commit does to deliveries: setting MASK stops a delivery latched in this cycle, and in the four cycles after it leaves
PEND for one more delivery (R318, log 26); clearing EN, or setting MASK outside that window, withdraws a request (R316). -/
def State.istApply (s : State) (n : Nat) (new : IstEntry) : State :=
  let masking := new.mask && !(s.ist n).mask
  let s0 := if masking then s.stopLatch n else s
  let old := s0.ist n
  let late := old.latched.isSome || s0.justRequested n
  let s1 := s0.setIst n { new with rrNext := old.rrNext, latched := old.latched, reRaised := new.reRaised || (masking && late) }
  if !new.en || (masking && !late) then s1.withdraw n else s1

/-- One commit of the Interrupt Source Table. -/
def State.istCommit (s : State) (a : Agent) (first : Option (List Word × List Word)) : State × Bool :=
  let w := s.window a.code Reg.istSel
  let n := fld w.sel 0 10
  let cause := s.istCause a n w.words first
  let s1 := s.setCommit a.code Reg.istStatus cause
  if cause = 0 then (s1.istApply n ((s.ist n).fromWords w.words), true) else (s1, false)

/-- IST_SEL. -/
def State.istSel (s : State) (a : Agent) (v : Word) : State :=
  let n := fld v 0 10
  s.setWindow a.code Reg.istSel ⟨at_ 0 n, if s.istSelectable a n then (s.ist n).words else zeros 5⟩

-- DMA channels ---------------------------------------------------------------------------------------------

/-- A channel. -/
def State.chan (s : State) (n : Nat) : Channel := s.dma.get n Channel.reset

/-- The state with a channel replaced. -/
def State.setChan (s : State) (n : Nat) (c : Channel) : State := { s with dma := s.dma.put n c }

/-- The words of a channel entry (Table 13-6). -/
def Channel.words (c : Channel) : List Word :=
  [at_ 31 (b2n c.assigned) ||| at_ 24 c.owner ||| at_ 21 c.prio ||| at_ 14 c.state ||| at_ 12 c.haltCause,
   at_ 16 c.haltReason ||| at_ 0 c.descIndex, loW c.doneTotal, at_ 28 c.retriesUsed]

/-- RW fields of a channel entry: PRIO, and the others. -/
def chanPrio : List EntryField := [⟨0, 21, 3⟩]
def chanSetup : List EntryField := [⟨0, 31, 1⟩, ⟨0, 24, 7⟩]

/-- RW bits of CH_DATA[w]. -/
def chanMasks : List Word := [0xFFE00000, 0, 0, 0]

/-- The agent may select the channel (R301). -/
def State.chanSelectable (s : State) (a : Agent) (n : Nat) : Bool :=
  let c := s.chan n
  match a with
  | .fn f => if c.assigned then mine f.val c.owner else isPf f.val
  | .cp _ => true

/-- The cause for which a commit is refused, 0 when it is accepted (R301). -/
def State.chanCause (s : State) (a : Agent) (n : Nat) (copy : List Word)
    (first : Option (List Word × List Word)) : Nat :=
  let c := s.chan n
  let bind :=
    match a with
    | .fn f => if isPf f.val then !bit (wd copy 0) 31 || mine f.val (fld (wd copy 0) 24 7)
               else !differs chanSetup c.words copy
    | .cp _ => true
  if !s.chanSelectable a n then 1
  else if !bind then 2
  else if c.state ≠ 0 && differs chanSetup c.words copy then 3
  else if undoes (chanPrio ++ chanSetup) first copy then 6
  else 0

/-- One commit of a channel entry. -/
def State.chanCommit (s : State) (a : Agent) (first : Option (List Word × List Word)) : State × Bool :=
  let w := s.window a.code Reg.chSel
  let n := fld w.sel 0 8
  let cause := s.chanCause a n w.words first
  let s1 := s.setCommit a.code Reg.dmaChStatus cause
  if cause = 0 then
    (s1.setChan n { s.chan n with assigned := bit (wd w.words 0) 31, owner := fld (wd w.words 0) 24 7,
                                  prio := fld (wd w.words 0) 21 3 }, true)
  else (s1, false)

/-- CH_SEL (R301). -/
def State.chSel (s : State) (a : Agent) (v : Word) : State :=
  let n := fld v 0 8
  s.setWindow a.code Reg.chSel ⟨at_ 0 n, if s.chanSelectable a n then (s.chan n).words else zeros 4⟩

-- Ties -----------------------------------------------------------------------------------------------------

/-- Two commits in one cycle from the two ports on the same object (R88): the port the tie bit names goes
first; when the second is refused the bit names its port. `commit` is one commit, `entry` reads the object. -/
def State.tieCommit (s : State) (a b : Agent) (pa pb : Nat) (tie : Bool) (setTie : State → Bool → State)
    (commit : State → Agent → Option (List Word × List Word) → State × Bool) (entry : State → List Word) : State :=
  let (x, y, py) := if b2n tie = pa then (a, b, pb) else (b, a, pa)
  let before := entry s
  let (s1, ok1) := commit s x none
  let (s2, ok2) := commit s1 y (if ok1 then some (before, entry s1) else none)
  if ok2 then s2 else setTie s2 (py == 1)

/-- A commit command: alone, or with a rival's commit in the same cycle. A rival of the other port on the
same object ties (R88); any other rival's commit follows. -/
def State.commitWith (s : State) (a : Agent) (rival : Option Fid) (selOff selBits : Nat) (tie : Bool)
    (setTie : State → Bool → State)
    (commit : State → Agent → Option (List Word × List Word) → State × Bool) (entry : State → List Word) : State :=
  match rival with
  | none => (commit s a none).1
  | some r =>
    let b : Agent := .fn r
    if !s.live b || b == a then (commit s a none).1
    else
      match a with
      | .fn f =>
        let same := fld (s.window a.code selOff).sel 0 selBits == fld (s.window b.code selOff).sel 0 selBits
        if same && portOf f.val != portOf r.val then
          s.tieCommit a b (portOf f.val) (portOf r.val) tie setTie commit entry
        else (commit (commit s a none).1 b none).1
      | .cp _ => (commit (commit s a none).1 b none).1

/-- QT.COMMIT with GO (R87, R88). -/
def State.qtCommitOp (s : State) (a : Agent) (v : Word) (rival : Option Fid) : State :=
  if !bit v 0 then s
  else s.commitWith a rival Reg.qtSel 13 s.qs.tie (fun st t => { st with qs := { st.qs with tie := t } })
    State.queueCommit (fun st => st.queueWords (fld (st.window a.code Reg.qtSel).sel 0 13))

/-- IC.IST_COMMIT with GO (R313). -/
def State.istCommitOp (s : State) (a : Agent) (v : Word) (rival : Option Fid) : State :=
  if !bit v 0 then s
  else s.commitWith a rival Reg.istSel 10 s.qs.istTie (fun st t => { st with qs := { st.qs with istTie := t } })
    State.istCommit (fun st => (st.ist (fld (st.window a.code Reg.istSel).sel 0 10)).words)

/-- DMA.CH_COMMIT with GO (R301). -/
def State.chCommitOp (s : State) (a : Agent) (v : Word) (rival : Option Fid) : State :=
  if !bit v 0 then s
  else s.commitWith a rival Reg.chSel 8 s.qs.chTie (fun st t => { st with qs := { st.qs with chTie := t } })
    State.chanCommit (fun st => (st.chan (fld (st.window a.code Reg.chSel).sel 0 8)).words)

/-- The status register of a commit window as the reader sees it (Table 04-12). -/
def State.commitStatus (s : State) (code off : Nat) (tie : Bool) : Word :=
  (s.agent code).status.get off 0 ||| at_ 0 (b2n tie)

/-- A write of 1 to COMMIT_FAIL clears it and FAIL_CAUSE (Table 04-12), but for a refusal of this cycle (R5). -/
def State.clearCommit (s : State) (code off : Nat) (v : Word) : State :=
  if bit v 31 && !bit (s.freshBits (agentKey code off)) 31 then s.setCommit code off 0 else s

/-- A write to word `i` of an agent's copy, within a mask. -/
def State.writeCopy (s : State) (code off i n : Nat) (mask v : Word) : State :=
  let w := s.window code off
  let ws := if w.words.isEmpty then zeros n else w.words
  s.setWindow code off { w with words := ws.set i ((wd ws i &&& ~~~mask) ||| (v &&& mask)) }

end Sys2Proof.Machine
end

