-- ==== Sys2Proof/Machine/Turns.lean ====
section
/-! DEFINITION. Which packet may run where: the checks of Table 04-7, dispatch (R90, R334), the turns of a pair's contexts
(R333, R341), and a packet at its keystone (R67, R78, R95). -/

namespace Sys2Proof.Machine

/-- Opcodes that Ground Floor mode serves (R387). -/
def gfServed (opc : Nat) : Bool := [0x00, 0x01, 0x41, 0x81, 0xA0].contains opc

-- The checks of Table 04-7 ---------------------------------------------------------------------------------------

/-- The opcode exists (row 1). -/
def State.opcodeKnown (s : State) (opc : Nat) : Bool :=
  (opRow opc).isSome || (decide (0xE0 ≤ opc) && decide (opc ≤ 0xEF) && s.loggiaDefined opc)

/-- The opcode is one of the frame opcodes (Table 04-2). -/
def isFrameOpc (opc : Nat) : Bool := match opRow opc with | some r => r.frame | none => false

/-- Rows 1 to 3 of Table 04-7. -/
def State.earlyChecks (s : State) (p : Packet) : List (Option Refuse) :=
  let w0 := wd p.words 0
  [need (s.opcodeKnown p.opc) ⟨0x14, 0x0207, 0⟩,
   need (fld w0 25 7 == 0 && fld (wd p.words 1) 29 3 == 0) (badParam 0x0701 0xFF),
   need (fld w0 12 4 == 0 && (!p.protectedHint || isFrameOpc p.opc)) (badParam 0x0206 0xFF),
   need (s.cqOk p.cq p.fid) (badParam 0x0702 0xFF)]

/-- The right of Table 03-6 that an opcode needs is there (row 5). -/
def State.rightOk (s : State) (p : Packet) : Bool :=
  let n := portOf p.fid
  if p.opc = 0xA1 then s.right n 0 && isPf p.fid
  else if p.opc = 0x40 ∨ p.opc = 0x42 then s.right n 1
  else if p.opc = 0x80 then s.right n 2 && isPf p.fid
  else true

/-- The first parameter word with a reserved bit set (R66). -/
def reservedParam (p : Packet) : Option Nat :=
  match opRow p.opc with
  | none => none
  | some r => (List.range 12).find? fun i => p.p i &&& ~~~(wd r.masks i) != 0

/-- Rows 4 to 8 of Table 04-7. -/
def State.lateChecks (s : State) (p : Packet) : List (Option Refuse) :=
  let names := s.namesSession p.opc
  let x := s.session p.sessField
  let q := s.queue p.q
  [need (!s.inGf || gfServed p.opc) ⟨0x30, 0x0807, 0⟩, need (s.rightOk p) ⟨0x16, 0x0601, 0⟩,
   need (!names || !q.sessLock || q.sessBind == p.sessField) (badParam 0x0703 0xFF),
   need (!names || (x.claimed && x.owner == p.fid) || (p.opc == 0x10 && !x.claimed)) ⟨0x12, 0x0704, 0⟩,
   need (p.deadline == 0 || isFrameOpc p.opc) (badParam 0x0501 0xFF),
   (match reservedParam p with | some i => some (badParam 0x0709 i) | none => none)]

-- Dispatch -------------------------------------------------------------------------------------------------------

/-- A packet that waits for a check, a transfer, a key operation or earlier frames (R90). -/
def PState.waits : PState → Bool
  | .fetched | .running _ | .frame => false
  | _ => true

/-- FENCE holds the packet (R67). -/
def State.fenced (s : State) (p : Packet) : Bool :=
  p.fence && (s.packetsOf p.q).any fun r => decide (r.id < p.id)

/-- A FENCE stops dispatch from the packet's queue before it (R67). -/
def State.stopped (s : State) (p : Packet) : Bool :=
  p.state == .fetched && (s.packetsOf p.q).any fun f => f.state == .fetched && decide (f.id ≤ p.id) && s.fenced f

/-- The packet stands aside: an earlier packet of its session is in such a wait, or behind a FENCE of its own queue, so its turn
cannot come, and it holds back no later packet of its queue (R67, R90). -/
def State.standsAside (s : State) (p : Packet) : Bool :=
  s.namesSession p.opc && s.qs.packets.any fun r =>
    decide (r.id < p.id) && s.namesSession r.opc && r.sessField == p.sessField && (r.state.waits || s.stopped r)

/-- The queue's oldest packet that waits for dispatch and does not stand aside; a FENCE that waits stops its queue (R67, R90). -/
def State.headOf (s : State) (q : Nat) : Option Packet :=
  (s.packetsOf q).find? fun p => p.state == .fetched && (s.fenced p || !s.standsAside p)

/-- An earlier packet of the same session has not taken its effect (R90, R96): a frame packet has once its frame
is with the scheduler. -/
def State.sessionWaits (s : State) (p : Packet) : Bool :=
  s.namesSession p.opc && s.qs.packets.any fun r =>
    decide (r.id < p.id) && s.namesSession r.opc && r.sessField == p.sessField && r.state != .frame

/-- Opcodes served before ENGINE_ON (R413). -/
def earlyOpc (opc : Nat) : Bool := [0x00, 0x01, 0x41, 0x81, 0xA0, 0xA1, 0x40, 0x42, 0x90].contains opc

/-- The packet may leave its queue now but for a context: not fenced, its session's turn, the engine on where it
needs it, and firmware running (R90, R386, R413). -/
def State.dispatchable (s : State) (p : Packet) : Bool :=
  !s.clk.inDeep && !s.fenced p && !s.sessionWaits p && (s.engineOn || earlyOpc p.opc || s.inGf) &&
    (!s.inGf || (s.fc.gfService && !s.fc.gfDead))

/-- An URGENT packet of the same function waits at the head of another queue (Table 04-2). -/
def State.urgentAhead (s : State) (p : Packet) : Bool :=
  !p.urgent && (s.qs.tbl.any fun e =>
    e.1 != p.q && e.2.fid == p.fid && match s.headOf e.1 with
      | some r => r.urgent && (firstRefusal (s.earlyChecks r)).isNone && s.dispatchable r
      | none => false)

/-- CONC.STATUS state of a pair (Table 15-1). -/
def State.pairState (s : State) (k : Nat) : Nat := s.regF Reg.concStatus (28 + 2 * k) 2

/-- The pair serves. -/
def State.pairServes (s : State) (k : Nat) : Bool := s.pairState k == 1

/-- Free packet contexts of a pair, lowest first: 0–6 (R333). -/
def State.freeCtxs (s : State) (k : Nat) : List Nat :=
  (List.range 7).filter fun i => (s.conc.ctxs.get (k * 8 + i) Context.reset).packet.isNone

/-- The pair that a packet goes to (R334); the Ground Floor service runs on one (R388). -/
def State.pairFor (s : State) (p : Packet) : Option Nat :=
  if s.inGf then (if s.pairServes 0 then some 0 else if s.pairServes 1 then some 1 else none)
  else match s.pairServes 0, s.pairServes 1 with
  | true, true =>
    some (if s.namesSession p.opc then p.sessField % 2 else if (s.freeCtxs 0).length < (s.freeCtxs 1).length then 1 else 0)
  | true, false => some 0
  | false, true => some 1
  | false, false => none

/-- What PACKET_DISPATCH does with a queue now: refuses its next packet by rows 1 to 3, or sends it to a pair's context (R78, R90, R334). -/
inductive Sent where
  | no
  | refused (p : Packet) (r : Refuse)
  | to (p : Packet) (pair slot : Nat)

/-- The queue's next packet is judged by rows 1 to 3, waits its turn, and goes to its pair's lowest free context. -/
def State.sends (s : State) (q : Nat) : Sent :=
  match s.headOf q with
  | none => .no
  | some p =>
    if s.fenced p then .no
    else match firstRefusal (s.earlyChecks p) with
      | some r => .refused p r
      | none =>
        if !s.dispatchable p || s.urgentAhead p then .no
        else match s.pairFor p with
          | none => .no
          | some k =>
            match s.freeCtxs k with
            | [] => .no
            | i :: _ => .to p k i

/-- A dispatch condition waits for a pair (R341). -/
def State.dispatchWaits (s : State) (k : Nat) : Bool :=
  s.qs.tbl.any fun e => match s.sends e.1 with
    | .to _ n _ => n == k
    | _ => false

-- Turns --------------------------------------------------------------------------------------------------------------

/-- Owner code of a pair (R332). -/
def pairCode (n : Fin 2) : Nat := 0x81 + 2 * n.val

/-- An event waits for a pair: an IC source in the request set of either processor, a timer, mailbox or dispatch condition
(R341). -/
def State.eventWaits (s : State) (p : Fin 2) : Bool :=
  s.ic.reqs.any (fun r => r.2 / 2 == p.val) || (List.range 8).any (fun i => s.regB (Reg.timerCtrl (56 + i)) 29) ||
    s.mbxPend (pairCode p) 0 != 0 || s.mbxPend (pairCode p) 1 != 0 || s.dispatchWaits p.val

/-- The pair executes the context, or turns to it now (R333, R341): first to context 7 where an event waits that it has not
looked at since a context stopped, then to the next ready one, and to context 7 for an event where none is ready. -/
def State.hasTurn (s : State) (c : Ctx) : Bool :=
  match s.current c.pair with
  | some k => k == c.slot.val
  | none =>
    if (s.turn c.pair).due && s.eventWaits c.pair then c.slot == 7
    else match s.nextReady c.pair with
      | some k => k == c.slot.val
      | none => c.slot == 7 && s.eventWaits c.pair

-- A packet at its keystone -------------------------------------------------------------------------------------------

/-- Firmware runs: not in DEEP_IDLE, where the Concourse's clock stands (Table 18-3), and not between entry into Ground
Floor mode and its service (R386, R388). -/
def State.firmwareRuns (s : State) (opc : Nat) : Bool :=
  !s.clk.inDeep && (if s.inGf then s.fc.gfService && !s.fc.gfDead && gfServed opc else true)

/-- The packet that runs in context `c` with opcode `opc`, in a pair that has turned to it (R333): where there is none the command does
nothing (log 11). -/
def State.packetIn (s : State) (c : Ctx) (opc : Nat) : Option Packet :=
  match s.running? c with
  | some p => if p.opc == opc && s.firmwareRuns opc && s.hasTurn c then some p else none
  | none => none

/-- A packet of the same kind that was fetched earlier is in a context: its keystone goes first (R302, R339, R363). -/
def State.behindEarlier (s : State) (p : Packet) (same : Packet → Bool) : Bool :=
  s.qs.packets.any fun r => decide (r.id < p.id) && same r && (match r.state with | .running _ => true | _ => false)

/-- A packet opcode at its keystone: the first refusal of its own checks (Table 04-7 row 9), or its effect. -/
def State.atKeystone (s : State) (c : Ctx) (opc : Nat) (checks : Packet → List (Option Refuse))
    (effect : Packet → State) : State :=
  match s.packetIn c opc with
  | some p =>
    match firstRefusal (checks p) with
    | some r => s.refuse p r
    | none => effect p
  | none => s

/-- The keystone writes the Session Table. -/
def writesTable (opc : Nat) : Bool := opc == 0x10 || opc == 0x11 || opc == 0x12

/-- A keystone that writes the Session Table waits for its turn (R95): one is applied in each FCLK cycle, and one of a
packet fetched earlier whose packet is in a context too goes first. -/
def State.tableBusy (s : State) (p : Packet) : Bool :=
  s.qs.keyAt == some s.cyc || s.behindEarlier p fun r => writesTable r.opc

/-- A packet opcode that writes the Session Table, at its keystone (R95, log 68). -/
def State.atTable (s : State) (c : Ctx) (opc : Nat) (checks : Packet → List (Option Refuse))
    (effect : Packet → State) : State :=
  match s.packetIn c opc with
  | some p =>
    if s.tableBusy p then s
    else s.atKeystone c opc checks fun q => let t := effect q; { t with qs := { t.qs with keyAt := some s.cyc } }
  | none => s

end Sys2Proof.Machine
end

