-- ==== Sys2Proof/Machine/Stops.lean ====
section
/-! DEFINITION. How work in progress ends outside its own course: key slots destroyed (R366, R367), unsent
packets discarded (R261), Viaduct channels stopped (R309, R310), and entry into Ground Floor mode (R386) with
the report of a fault and its FATAL reaction (R370, R384, R388). -/

namespace Sys2Proof.Machine

-- Key slots ------------------------------------------------------------------------------------------------

/-- The state with a key slot replaced. -/
def State.setKey (s : State) (k : Nat) (x : KeySlot) : State := { s with sec := { s.sec with slots := s.sec.slots.put k x } }

/-- A KEY_ERASE waits one slot less; with its last slot destroyed it completes (R366). -/
def State.eraseStep (s : State) (k : Nat) (p : Packet) : State :=
  match p.state with
  | .erasing ks total =>
    let rest := ks.filter fun j => j != k
    if rest.isEmpty then s.done p [loW total, 0, 0, 0] else s.setPState p.id (.erasing rest total)
  | _ => s

/-- A slot is destroyed: EMPTY, its key and SEQ gone (R366). -/
def State.destroyKey (s : State) (k : Nat) : State :=
  s.qs.packets.foldl (fun st p => st.eraseStep k p) (s.setKey k KeySlot.reset)

/-- A packet is being encrypted under the slot (R366). -/
def State.sealing (s : State) (k : Nat) : Bool :=
  s.flows.any fun e => match e.2.sending with | some p => imgKey p.image == k | none => false

/-- An ERASING slot that no picture and no packet holds is destroyed (R227, R366). -/
def State.settleKey (s : State) (k : Nat) : State :=
  if (s.key k).state = 2 && (s.key k).holds = 0 && !s.sealing k then s.destroyKey k else s

/-- A LOADED slot becomes ERASING, and is destroyed at once when nothing holds it (R366). -/
def State.eraseKey (s : State) (k : Nat) : State :=
  let x := s.key k
  if x.state ≠ 1 then s else (s.setKey k { x with state := 2 }).settleKey k

/-- A picture takes a hold on a slot (R227). -/
def State.holdKey (s : State) (k : Nat) : State :=
  let x := s.key k
  s.setKey k { x with holds := x.holds + 1 }

/-- A picture's hold on a slot ends; the last hold of an ERASING slot destroys it (R227). -/
def State.releaseKey (s : State) (k : Nat) : State :=
  let x := s.key k
  (s.setKey k { x with holds := x.holds - 1 }).settleKey k

/-- Slots owned by functions that satisfy `p`. -/
def State.keysOf (s : State) (p : Nat → Bool) : List Nat :=
  s.sec.slots.keysWhere fun _ x => x.state != 0 && p x.owner

/-- Every slot is destroyed at once (R367). -/
def State.destroyAllKeys (s : State) : State := (s.keysOf fun _ => true).foldl State.destroyKey s

-- Flows ----------------------------------------------------------------------------------------------------

/-- Committed packets that have not been sent. -/
def Flow.unsent (f : Flow) : Nat :=
  (f.frames.map fun o => o.total - o.next).foldl (· + ·) 0 + b2n f.head.isSome + b2n f.sending.isSome

/-- The pin that a flow in RUN holds on its ring drops (R294). -/
def State.unpinRing (s : State) (f : Nat) : State :=
  let x := s.flow f
  match x.ringPin with
  | some k => (s.setFlow f { x with ringPin := none }).unpin k
  | none => s

/-- The flow becomes IDLE. -/
def State.idleFlow (s : State) (f : Nat) : State :=
  let s1 := s.unpinRing f
  s1.setFlow f { s1.flow f with state := 0, haltCause := 0 }

/-- A flow in RUN of a disabled session becomes IDLE when nothing committed is left to send and no frame of the
session is still to cross (R261). -/
def State.settleFlow (s : State) (f : Nat) : State :=
  let x := s.flow f
  if x.state = 1 && x.unsent = 0 && !(s.session (f / 8)).en && (s.framesOf (f / 8)).isEmpty then s.idleFlow f else s

/-- The packet that a flow's packetiser was writing is done with, and holds its key no longer (R366). -/
def State.endSending (s : State) (f : Nat) : State :=
  let x := s.flow f
  match x.sending with
  | some p => (s.setFlow f { x with sending := none }).settleKey (imgKey p.image)
  | none => s

/-- Every unsent committed packet of a flow is discarded; one whose writes have begun is cut off before its header (R261). -/
def State.discardFlow (s : State) (f : Nat) : State :=
  let x := s.flow f
  ((s.setFlow f { x with frames := [], head := none, discarded := satAdd 32 x.discarded x.unsent }).endSending f).settleFlow f

-- Viaduct channels -----------------------------------------------------------------------------------------

/-- Segments were read whose writes are still to come. -/
def Channel.inFlight (c : Channel) : Bool :=
  match c.xfer with
  | some x => decide (x.written < x.issued)
  | none => false

/-- Buffers that a channel pins beside the kick's own list (R294). -/
def Channel.held (c : Channel) : List Nat :=
  c.pins ++ (match c.xfer with | some x => x.pins | none => [])

/-- The kick at the head of a channel's kicks starts: RUNNING, DESC_INDEX 0 (R302). In Ground Floor mode no
kick starts (R386). -/
def State.startKick (s : State) (n : Nat) : State :=
  let c := s.chan n
  if c.state ≠ 0 || s.inGf then s
  else match c.kicks with
    | [] => s
    | id :: _ =>
      match s.packet? id with
      | some p =>
        s.setChan n { c with state := 1, descIndex := 0, desc := s.refAddr (p.p 1) (p.p 2), descBuf := handleKey (p.p 1),
                             left := (p.p 3).toNat, links := 0, bytes := 0, xfer := none, trig := none,
                             stopping := false, retried := 0 }
      | none => s

/-- A kick's packet ends as `f` says; the buffer of its descriptor list is unpinned (R294). -/
def State.finishKick (s : State) (id : Nat) (f : State → Packet → State) : State :=
  match s.packet? id with
  | some p => f (s.unpin (handleKey (p.p 1))) p
  | none => s

/-- The running kick of a channel ends and the channel goes to `st`, 0 IDLE or 3 HALTED. Kicks behind it then
run, or on a HALTED channel complete ABORTED at their turn (R302, R309). -/
def State.endKick (s : State) (n st : Nat) (f : State → Packet → State) : State :=
  let c := s.chan n
  match c.kicks with
  | [] => s
  | id :: rest =>
    let s0 := { s with clk := { s.clk with quietSince := s.now } }
    let s1 := (s0.unpinAll c.held).setChan n
      { c with state := st, kicks := if st = 3 then [] else rest, xfer := none, trig := none, left := 0, bytes := 0,
               stopping := false, pins := [] }
    let s2 := s1.finishKick id f
    if st = 3 then rest.foldl (fun u j => u.finishKick j State.abort) s2 else s2.startKick n

/-- A stopping channel becomes IDLE once the writes of its segments in flight are issued (R309). -/
def State.settleStop (s : State) (n : Nat) : State :=
  let c := s.chan n
  if c.stopping && !c.inFlight then s.endKick n 0 State.abort else s

/-- A RUNNING or WAITING channel stops (R309). -/
def State.stopChan (s : State) (n : Nat) : State :=
  let c := s.chan n
  if c.state = 1 ∨ c.state = 2 then (s.setChan n { c with stopping := true }).settleStop n else s

/-- A reset of its owner stops a channel: kicks are discarded without completion and the channel becomes IDLE
and unassigned (R310). -/
def State.dropChan (s : State) (n : Nat) : State :=
  let c := s.chan n
  let s0 := { s with clk := { s.clk with quietSince := s.now } }
  let s1 := (s0.unpinAll c.held).setChan n
    { Channel.reset with owner := c.owner, prio := c.prio, descIndex := c.descIndex, doneTotal := c.doneTotal,
                         retriesUsed := c.retriesUsed }
  c.kicks.foldl (fun st id => st.finishKick id fun u p => u.endPacket p.id) s1

-- Ground Floor entry ----------------------------------------------------------------------------------------

/-- FC.INJ_CTRL.LIVE. -/
def State.injLive (s : State) : Bool := s.regB Reg.injCtrl 31

/-- Entry into Ground Floor mode for the fault of SEQ `seq` (Table 17-8): the steps up
to tick F + 20 in one (log 29). Frames and packets are ended by the Ground Floor service. -/
def State.enterGf (s : State) (seq : Nat) : State :=
  let s1 := { s with
    fc := { s.fc with groundFloor := true, gfService := false },
    board := { s.board with smbAlert := true },
    conc := { s.conc with ctxs := s.conc.ctxs.mapVal fun x => { x with journal := [] } } }
  let s2 := ((s1.setReg Reg.gfCause (loW seq)).setRegB Reg.fcStatus 31 true).setRegB Reg.fcStatus 30 true
  let s3 := (s2.dma.map (·.1)).foldl State.stopChan s2
  let s4 := (s3.flows.map (·.1)).foldl State.discardFlow s3
  s4.destroyAllKeys

/-- A unit reports a fault (R370, R377): it is recorded, and a FATAL class has its reaction: Ground Floor mode,
a simulated entry for an injection while LIVE is 0 (R384), nothing more within the mode (R388). The reactions of
the other classes are the caller's, and `reaction` is what it will carry out (R443). -/
def State.report (s : State) (r : Report) : Recorded :=
  let cls := if s.escalates r then r.cls + 1 else r.cls
  if cls ≥ 2 then
    if s.inGf then s.record { r with reaction := 0 }
    else if r.injected && !s.injLive then
      let x := s.record { r with reaction := 5 }
      { x with st := (x.st.raiseB Reg.fcStatus 29).setReg Reg.simSeq (loW x.seq) }
    else
      let x := s.record { r with reaction := 4 }
      { x with st := x.st.enterGf x.seq }
  else s.record r

/-- The class a report will have, and so whether its own reaction is carried out at all. -/
def State.classOf (s : State) (r : Report) : Nat := if s.escalates r then r.cls + 1 else r.cls

/-- The entry of this FCLK cycle, of the same unit and of the other INJECTED value, whose fault called for a reaction (R385). -/
def State.twin (s : State) (r : Report) : Option Hist :=
  (s.fc.hist.find? fun e => e.2.unit == r.unit && e.2.cyc == s.cyc && e.2.injected != r.injected &&
    [1, 2, 3, 7].contains e.2.reaction).map (·.2)

/-- The entry with this SEQ is marked MERGED, and FC.MERGED counts it (R385). -/
def State.mergeEntry (s : State) (seq : Nat) : State :=
  { s with fc := { s.fc with hist := s.fc.hist.mapIf (fun _ h => h.seq == seq) fun h => { h with reaction := 6 } } }.bumpSat
    Reg.merged 0 32 1

/-- A fault of class 1 and its reaction `act`, unless a real and an injected fault of one unit fall together in this cycle (R385):
the more severe one's reaction is carried out once, at equal severity the real one's, and the other entry records MERGED. `again`
is set where the real fault's reaction concerns something of its own even after the injected one's (a line, a packet). -/
def State.merging (s : State) (r : Report) (again : Bool) (act : State → Recorded) : Recorded :=
  match s.twin r with
  | none => act s
  | some h =>
    if h.cls < s.classOf r || (h.cls == s.classOf r && !r.injected && again) then
      let x := act s
      { x with st := x.st.mergeEntry h.seq }
    else if h.cls == s.classOf r && !r.injected then
      let x := s.record { r with reaction := h.reaction, outcome := h.outcome }
      { x with st := x.st.mergeEntry h.seq }
    else
      let x := s.record { r with reaction := 6 }
      { x with st := x.st.bumpSat Reg.merged 0 32 1 }

/-- A fault that has nothing to act on is recorded only where it falls together with another on its unit (R385). -/
def State.mergeLate (s : State) (r : Report) : State :=
  if (s.twin r).isSome && decide (s.classOf r < 2) then (s.merging r false fun st => st.record r).st else s

/-- A report whose reaction below FATAL is to log it. -/
def State.log (s : State) (r : Report) : State := (s.report r).st

end Sys2Proof.Machine
end

