-- ==== Sys2Proof/Machine/Tollgate.lean ====
section
/-! DEFINITION. The Tollgate (R241–R262): flow images, packets cut from committed frames, token buckets, fair
queueing and delivery into a flow's ring. -/

namespace Sys2Proof.Machine

-- The ring and the bucket ------------------------------------------------------------------------------------

/-- SLOTS of a flow's ring (R259). -/
def Flow.slots (x : Flow) : Nat := 2 ^ imgLogSlots x.image

/-- The ring is full (R259). -/
def Flow.ringFull (x : Flow) : Bool := (x.prod + 1) % x.slots == x.cons

/-- The flow encrypts. -/
def Flow.encrypts (x : Flow) : Bool := imgKey x.image != 0xFF

/-- Slot bytes of a packet of `n` payload bytes (R251). -/
def Flow.slotBytes (x : Flow) (n : Nat) : Nat := 32 + n + (if x.encrypts then 16 else 0)

/-- charge_bytes of a packet (R258). -/
def Flow.chargeBytes (x : Flow) (n : Nat) : Nat := x.slotBytes n + imgOverhead x.image

/-- Units of 1/800,000 byte (R257). -/
def tokenUnit : Nat := 800000

/-- The bucket's cap. -/
def Flow.cap (x : Flow) : Nat := imgBurst x.image * tokenUnit

/-- The function of a flow's session. -/
def State.flowFid (s : State) (f : Nat) : Nat := (s.session (f / 8)).owner

/-- The scheduler of a flow (R256). -/
def State.flowSched (s : State) (f : Nat) : Nat :=
  if imgMem (s.flow f).image then 2 else portOf (s.flowFid f)

/-- Buffer that holds a flow's ring in device memory. -/
def Flow.ringBuf (x : Flow) : Option Nat := if imgMem x.image then some (handleKey (wd x.image 6)) else none

/-- The flow enters RUN and pins its ring (R294). -/
def State.runFlow (s : State) (f : Nat) : State :=
  let s1 := s.unpinRing f
  let x := s1.flow f
  let s2 := s1.setFlow f { x with state := 1, haltCause := 0, ringPin := x.ringBuf }
  match x.ringBuf with
  | some k => s2.pin k
  | none => s2

/-- The flow enters HALTED with a cause (R260). -/
def State.haltFlow (s : State) (f cause : Nat) : State :=
  let s1 := s.unpinRing f
  (s1.setFlow f { s1.flow f with state := 2, haltCause := cause }).bumpSat Reg.haltEvents 0 32 1

/-- A report of a Tollgate fault on a flow (R372). -/
def State.flowReport (s : State) (f code reaction : Nat) : Report :=
  { Report.of (0x0700 + s.flowSched f) code with
    session := some (f / 8), fid := some (s.flowFid f), detail := f, reaction }

-- Heads ------------------------------------------------------------------------------------------------------

/-- The frame at the head of a flow loses a packet to poison: that packet and the rest of the frame are
discarded, the session's next frame is intra, and a contained fault is reported (R249). -/
def State.poisonFault (s : State) (f : Nat) (r : Report) : Recorded :=
  let x := s.flow f
  match x.frames with
  | [] => s.report r
  | o :: rest =>
    let n := (o.total - o.next) + (if x.head.isSome then 1 else 0)
    s.merging r true fun st =>
      let s1 := (st.setFlow f { x with frames := rest, head := none, lost := satAdd 32 x.lost n }).bumpSat Reg.poisonCount 0 32 n
      let s2 := s1.setSession (f / 8) { s1.session (f / 8) with nextIntra := true }
      let y := s2.report r
      { y with st := y.st.settleFlow f }

/-- The same on a flow that holds a frame. -/
def State.poisonFrame (s : State) (f : Nat) (r : Report) : State :=
  if (s.flow f).frames.isEmpty then s else (s.poisonFault f r).st

/-- Tag of a landing's 8-byte word (R247): data, the end of a unit with its count of valid bytes, idle, poison. -/
inductive LandTag where
  | data
  | stop (valid : Nat)
  | idle
  | poison
deriving DecidableEq, Repr

/-- An 8-byte word of a landing, with its parity bit (R247). -/
structure LandWord where
  tag : LandTag
  bytes : List Byte
  parity : Bool
deriving DecidableEq, Repr

/-- Even parity over the 64 data bits and the tag (R247); how a tag is coded is open. -/
def landParity (t : LandTag) (bs : List Byte) : Bool :=
  let code := match t with | .data => 0 | .stop n => n | .idle => 9 | .poison => 10
  bs.foldl (fun acc b => (List.range 8).foldl (fun a i => a ^^ b.getLsbD i) acc) (Config.tagParity code)

/-- A word of a landing as it is written. -/
def LandWord.of (t : LandTag) (bs : List Byte) : LandWord := { tag := t, bytes := bs, parity := landParity t bs }

/-- What a landing that holds no committed word returns (R247). -/
def LandWord.idle : LandWord := LandWord.of .idle []

/-- The words of one unit that starts at byte `base` of its frame, each with its first byte; `bad` are poisoned bytes. -/
def unitWords (bad : List Nat) (base : Nat) (u : List Byte) : List (Nat × LandWord) :=
  (List.range (ceilDiv u.length 8)).map fun i =>
    let a := base + 8 * i
    let bs := slice u (8 * i) 8
    (a, LandWord.of (if bad.any fun b => decide (a ≤ b) && decide (b < a + bs.length) then .poison
      else if 8 * (i + 1) < u.length then .data else .stop bs.length) bs)

/-- The words of a committed frame in bitstream order, each with its first byte (R247). -/
def OutFrame.words (o : OutFrame) : List (Nat × LandWord) :=
  (o.units.foldl (fun (acc : Nat × List (Nat × LandWord)) u =>
    (acc.1 + u.length, acc.2 ++ unitWords o.poison acc.1 u)) (0, [])).2

/-- Words of a landing (R247). -/
def landingWords : Nat := 1024

/-- What a flow's head landing holds: the words of its oldest committed frame from the first byte on that no packet has taken; a
decision of a crossing's cycle does not see its frame (R246, R247). -/
def Flow.headLanding (x : Flow) (cyc : Nat) : List LandWord :=
  match x.frames with
  | o :: _ =>
    if cyc ≤ o.since then []
    else ((o.words.filter fun w => decide (o.taken < w.1 + w.2.bytes.length)).take landingWords).map (·.2)
  | [] => []

/-- A read of the head landing (R247). -/
def Flow.landingRead (x : Flow) (cyc : Nat) : LandWord := (x.headLanding cyc).headD LandWord.idle

/-- Bytes [a, a + n) of the frame touch a poisoned word (R249). -/
def OutFrame.poisonedIn (o : OutFrame) (a n : Nat) : Bool :=
  o.words.any fun w => w.2.tag == .poison && decide (w.1 < a + n) && decide (a < w.1 + w.2.bytes.length)

/-- The next packet of the oldest committed frame becomes the head of its flow, with its finish; a flow whose head landing
yields an idle item has none (R246, R247, R258). -/
def State.formHead (s : State) (f : Nat) : State :=
  let x := s.flow f
  match x.head, x.frames with
  | none, o :: rest =>
    if (x.landingRead s.cyc).tag == .idle then s
    else match o.packets[o.next]? with
    | some (frag, payload) =>
      if o.poisonedIn o.taken payload.length then s.poisonFrame f (s.flowReport f 0x0701 3)
      else
        let v := s.tgTime.get (s.flowSched f) 0
        let finish := max v x.lastFinish + ceilDiv (x.chargeBytes payload.length * 256) (imgWeight x.image)
        let h : HeadPacket :=
          { frag, payload, index := o.next, count := o.total, first := o.next == 0, last := o.next + 1 == o.total,
            frameNum := o.num, pts := o.pts, finish }
        s.setFlow f { x with head := some h, lastFinish := finish, frames := { o with next := o.next + 1 } :: rest }
    | none => s
  | _, _ => s

/-- Byte `b` of a committed frame of a flow is in a word that turned to poison (R249). -/
def State.poisonWord (s : State) (f num b : Nat) : State :=
  let x := s.flow f
  let hit (o : OutFrame) : Bool := o.num == num
  if x.frames.any hit then
    s.setFlow f { x with frames := x.frames.map fun o => if hit o then { o with poison := b :: o.poison } else o }
  else s

/-- A parity error on a committed word in a landing (R249): the word is poison, and a packet at the head that holds it is
discarded with the rest of its frame. -/
def State.landingError (s : State) (f num b : Nat) : State :=
  let s1 := (s.poisonWord f num b).bumpSat Reg.parityErrors 0 32 1
  match (s1.flow f).head, (s1.flow f).frames with
  | some h, o :: _ =>
    if o.num == num && o.poisonedIn (o.taken - h.payload.length) h.payload.length then
      s1.poisonFrame f (s1.flowReport f 0x0701 3)
    else s1
  | _, _ => s1

/-- HEAD_LANDING_FILL (R247): with no packet at the head, the oldest committed frame's next one is formed. `poisoned` is
the frame and the byte of a committed word whose parity failed in a landing (R249). -/
def execHeadLandingFill (flow : Fin 4096) (poisoned : Option (Nat × Nat)) (s : State) : Res :=
  if s.inGf || s.clk.inDeep then .next s
  else match poisoned with
    | none => .next (s.formHead flow.val)
    | some (num, b) => .next ((s.landingError flow.val num b).formHead flow.val)

/-- TOKEN_REFILL (R257): every flow of an enabled session, or of a disabled one that still holds committed
packets, is refilled. -/
def State.refill (s : State) (f : Nat) (x : Flow) : Flow :=
  let ses := s.session (f / 8)
  if !x.image.isEmpty && ses.claimed && decide (f % 8 < ses.steps.length) && (ses.en || x.unsent != 0) then
    { x with tokens := min (x.tokens + imgRate x.image) x.cap }
  else x

/-- The buckets were refilled in this tick (R257). -/
def State.refilled (s : State) : Bool := s.tgRefill == some s.time.raw

/-- TOKEN_REFILL (R257): once at each tick boundary. -/
def execTokenRefill (s : State) : Res :=
  if s.clk.inDeep || s.refilled then .next s
  else .next { s with flows := s.flows.map fun e => (e.1, s.refill e.1 e.2), tgRefill := some s.time.raw }

-- Grants -----------------------------------------------------------------------------------------------------

/-- The flow can send but for room in its ring. -/
def State.wants (s : State) (f : Nat) (x : Flow) : Bool :=
  x.state == 1 && !s.portInReset (portOf (s.flowFid f)) &&
    match x.head with
    | some h => decide (x.chargeBytes h.payload.length * tokenUnit ≤ x.tokens)
    | none => false

/-- The eligible flow that scheduler `k` grants: smallest finish, then lowest id (R258). -/
def State.chooseFlow (s : State) (k : Nat) : Option Nat :=
  (s.flows.foldl (fun (acc : Option (Nat × Nat)) e =>
    if s.flowSched e.1 == k && s.wants e.1 e.2 && !e.2.ringFull then
      let fin := match e.2.head with | some h => h.finish | none => 0
      match acc with
      | some (g, best) => if fin < best || (fin == best && e.1 < g) then some (e.1, fin) else acc
      | none => some (e.1, fin)
    else acc) none).map (·.1)

/-- Why a flow's key no longer serves a packet: HALT_CAUSE 2 or 4 (R260). -/
def State.keyHalt (s : State) (f : Nat) (x : Flow) : Option Nat :=
  if !x.encrypts then none
  else if (s.keyReason (imgKey x.image) (s.flowFid f) 2).isSome then some 2
  else if (s.key (imgKey x.image)).seq ≥ 2 ^ 64 - 1 then some 4 else none

/-- The header of a packet (Table 11-1). -/
def headerBytes (f : Nat) (x : Flow) (h : HeadPacket) (phase : Bool) (seq : Nat) : List Byte :=
  bytesOfWords [at_ 31 (b2n phase) ||| at_ 30 (b2n x.encrypts) ||| at_ 29 (b2n h.first) ||| at_ 28 (b2n h.last) |||
      at_ 26 h.frag ||| at_ 0 f,
    at_ 16 h.index ||| at_ 0 h.count, at_ 0 (h.frameNum % 2 ^ 24), at_ 0 h.payload.length, loW h.pts, hiW h.pts,
    loW seq, hiW seq]

/-- Bytes 32 onward of a packet: the payload, or its ciphertext and tag (R251, R252). -/
def State.packetBody (s : State) (f : Nat) (x : Flow) (h : HeadPacket) (seq : Nat) : List Byte :=
  if x.encrypts then
    let sealed := Config.gcmSeal (s.key (imgKey x.image)).key (wordBytes (imgSalt x.image) ++ (natBytes 8 seq).reverse)
      (headerBytes f x h false seq) h.payload
    (sealed ++ List.replicate (h.payload.length + 16) 0).take (h.payload.length + 16)
  else h.payload

/-- Bytes written toward a flow's destination: device memory or the function's port (R259). -/
def State.flowWrite (s : State) (image : List Word) (fid addr : Nat) (bs : List Byte) : State :=
  if imgMem image then s.store addr bs else s.emitWrite fid addr bs

/-- Base address of a flow's ring. -/
def State.ringBase (s : State) (x : Flow) : Nat :=
  if imgMem x.image then s.refAddr (wd x.image 6) (wd x.image 7) else imgRingBus x.image

/-- A scheduler's packetiser is at work on a packet (R256). -/
def State.sendsOn (s : State) (k : Nat) : Bool := decide (s.cyc < s.tgFree.get k 0)

/-- The head packet of a flow is granted: the charge is deducted, its SEQ is taken, the packetiser begins with its body, and the
same frame's next packet becomes the head (R252, R256–R259). -/
def State.grantPacket (s : State) (f : Nat) (h : HeadPacket) : State :=
  let x := s.flow f
  let k := s.flowSched f
  let seq := if x.encrypts then (s.key (imgKey x.image)).seq else 0
  let slot := s.ringBase x + x.prod * imgSlotBytes x.image
  let stop := s.cyc + ceilDiv (x.slotBytes h.payload.length) 32
  let s1 := s.flowWrite x.image (s.flowFid f) (slot + 32) (s.packetBody f x h seq)
  let s2 := if x.encrypts then s1.setKey (imgKey x.image) { s1.key (imgKey x.image) with seq := seq + 1 } else s1
  let s3 := s2.setFlow f
    { x with tokens := x.tokens - x.chargeBytes h.payload.length * tokenUnit, head := none,
             sending := some { packet := h, image := x.image, fid := s.flowFid f, slot, phase := x.phase, seq, ends := stop },
             frames := if h.last then x.frames.drop 1 else x.frames }
  let s4 := { s3 with tgTime := s3.tgTime.put k h.finish, tgFree := s3.tgFree.put k stop }
  if h.last then s4 else s4.formHead f

/-- A flow's packet ends (R259): the header goes out, then the doorbell; PROD advances and the counters move. Where PROD wraps
the ring's handle is checked (R260 cause 3), and a flow of a disabled session with nothing left becomes IDLE (R261). -/
def State.deliverPacket (s : State) (f : Nat) (p : Sending) : State :=
  let x := s.flow f
  let y := { x with image := p.image }
  let n := y.slotBytes p.packet.payload.length
  let prod := (x.prod + 1) % y.slots
  let k := if imgMem p.image then 2 else portOf p.fid
  let s1 := s.flowWrite p.image p.fid p.slot (headerBytes f y p.packet p.phase p.seq)
  let s2 := if imgDoorbell p.image = 0 then s1 else s1.emitWrite p.fid (imgDoorbell p.image) (natBytes 4 prod)
  let s3 := s2.setFlow f
    { x with prod, phase := if prod = 0 then !x.phase else x.phase, sent := (x.sent + 1) % 2 ^ 32,
             bytesSent := x.bytesSent + n, lastFrame := p.packet.frameNum % 2 ^ 24,
             seq := if y.encrypts then p.seq else x.seq }
  let s4 := ((s3.bump (Reg.schedPackets k) 0 32).bumpPair (Reg.schedBytesLo k) (Reg.schedBytesHi k) n).endSending f
  let bad := imgMem p.image && prod == 0 && (s4.checkHandle p.fid (wd p.image 6) 0).isSome
  (if bad then (s4.haltFlow f 3).protoEvent p.fid 0 else s4).settleFlow f

/-- Packets whose last cycle has come are delivered (R256, R259). -/
def State.deliverDue (s : State) : State :=
  s.flows.foldl (fun st e => match e.2.sending with
    | some p => if p.ends ≤ st.cyc then st.deliverPacket e.1 p else st
    | none => st) s

/-- PACKET_GRANT (R256–R260): scheduler `k` grants the eligible flow with the smallest finish, not before its packetiser's
current packet ends nor before the tick's refill (R257); a flow whose key no longer serves is HALTED instead, and no packet goes in this decision. -/
def execPacketGrant (sched : Fin 3) (s : State) : Res :=
  if s.inGf || s.clk.inDeep || s.sendsOn sched.val || !s.refilled then .next s
  else match s.chooseFlow sched.val with
    | none => .next s
    | some f =>
      match s.keyHalt f (s.flow f), (s.flow f).head with
      | some cause, _ => .next ((s.haltFlow f cause).protoEvent (s.flowFid f) 0)
      | none, some h => .next (s.grantPacket f h)
      | none, none => .next s

/-- The consumer index in device memory, none where its line is poisoned (R260, R308). -/
def State.memIndex (s : State) (x : Flow) : Option Word :=
  let a := s.refAddr (wd x.image 9) (wd x.image 10)
  if s.mem.poisonIn a 4 then none else some (s.loadW a)

/-- The read of a flow's consumer index goes out (R260). -/
def State.askIndex (s : State) (f : Nat) : State :=
  let x := s.flow f
  if imgMem x.image then s else s.emitRead (s.flowFid f) (pair64 (wd x.image 10) (wd x.image 9)) 4

/-- A consumer index read failed: it is read again at once, and when its last retry has failed the flow is HALTED (R260). -/
def State.indexFailed (s : State) (f : Nat) : State :=
  let x := s.flow f
  if x.retried < s.regF Reg.chRetry 0 4 then s.setFlow f { x with retried := x.retried + 1 }
  else
    let r := s.flowReport f 0x0703 2
    (s.merging r true fun st => ((st.setFlow f { x with retried := 0 }).haltFlow f 1).report r).st

/-- A flow may read its consumer index (R260): its grant found the ring full, and its last read lies 100 ticks back or failed. -/
def State.indexDue (s : State) (f : Nat) : Bool :=
  let x := s.flow f
  !s.inGf && !s.clk.inDeep && s.wants f x && x.ringFull && !s.sendsOn (s.flowSched f) &&
    (x.retried != 0 || match x.lastRead with
      | some t => decide (t + 100 ≤ s.now)
      | none => true)

/-- CONSUMER_INDEX_READ (R260): one read of the consumer index of a flow whose ring is full. `index` is what the bus returned, none
where the read failed; an index in device memory is read there. -/
def execConsumerIndexRead (flow : Fin 4096) (index : Option Word) (s : State) : Res :=
  let f := flow.val
  if !s.indexDue f then .next s
  else
    let x := s.flow f
    let s1 := (s.setFlow f { x with lastRead := some s.now }).askIndex f
    match (if imgMem x.image then s.memIndex x else index) with
    | none => .next (s1.indexFailed f)
    | some v =>
      let s2 := s1.setFlow f { s1.flow f with retried := 0 }
      if v.toNat ≥ x.slots then .next ((s2.haltFlow f 5).protoEvent (s.flowFid f) 0)
      else .next (s2.setFlow f { s2.flow f with cons := v.toNat })

-- FLOW_SET -----------------------------------------------------------------------------------------------------

/-- The image that FLOW_SET names. -/
def State.flowImage (s : State) (p : Packet) : List Word := s.loadWs (s.refAddr (p.p 1) (p.p 2)) 16

/-- Fields that FLOW_SET may not change on an enabled session are equal (R255): all but KEY_SLOT, SALT,
RATE_KBPS, BURST_BYTES, WEIGHT and OVERHEAD. -/
def imageFixed (old new : List Word) : Bool :=
  !old.isEmpty && ((List.range 16).zip [0xFF00FFFF, 0, 0, 0xFFFFFE00, allW, 0, allW, allW, allW, allW, allW, allW,
    allW, allW, allW, allW]).all fun (i, m) => (wd old i ^^^ wd new i) &&& m == 0

/-- Rule `n` of R254 judges a field that the new image changes. -/
def ruleTouched (old new : List Word) (n : Nat) : Bool :=
  let ch (i : Nat) (m : Word) := (wd old i ^^^ wd new i) &&& m != 0
  match n with
  | 3 => ch 0 0x00FF0000
  | 4 => ch 0 0x00FF0000 || ch 2 0x00FFFFFF || ch 3 0x1FF
  | 5 => ch 1 allW
  | 9 => ch 0 0x00FF0000
  | _ => false

/-- R255 on an enabled session. -/
def State.flowLive (s : State) (p : Packet) : Option Refuse :=
  let i := p.sessField
  let x := s.session i
  let k := (p.p 0).toNat
  let old := (s.flow (flowId i k)).image
  let new := s.flowImage p
  if !x.en then none
  else if !imageFixed old new then some ⟨0x17, 0x0707, 0⟩
  else match x.steps[k]? with
    | none => none
    | some d =>
      ([3, 4, 5, 9].findSome? fun n => if ruleTouched old new n then s.flowRule x d new n else none).map
        fun r => ⟨0x10, r, 0⟩

/-- The checks of FLOW_SET (R253, R255, R442). -/
def State.flowSetChecks (s : State) (p : Packet) : List (Option Refuse) :=
  [need (!(s.session p.sessField).isDec) (badParam 0x0204 0xFF),
   need (decide ((p.p 0).toNat ≤ 5)) (badParam 0x070A 0),
   s.checkHandle p.fid (p.p 1) 1,
   need ((p.p 2).toNat % 64 == 0) (badParam 0x0305 2),
   need (rangeInside (p.p 1) (p.p 2).toNat 64) (badParam 0x0301 1),
   need (imageReservedOk (s.flowImage p)) (badParam 0x0406 1),
   s.flowLive p]

/-- FLOW_SET (R253, R255). -/
def execFlowSet (c : Ctx) (s : State) : Res :=
  .next (s.atKeystone c 0x70 s.flowSetChecks fun p =>
    let f := flowId p.sessField (p.p 0).toNat
    let x := s.flow f
    let y := { x with image := s.flowImage p }
    let s1 := s.setFlow f { y with tokens := min x.tokens y.cap }
    let s2 := if (s.session p.sessField).en && x.state = 2 then s1.runFlow f else s1
    s2.done p [loW f, 0, 0, 0])

end Sys2Proof.Machine
end

