-- ==== Sys2Proof/Machine/Viaduct.lean ====
section
/-! DEFINITION. The Buffer Pool Manager's packets (R289–R293), clearing (R291), and the Viaduct: kicks,
descriptors, segments, errors and stops (R298–R310). -/

namespace Sys2Proof.Machine

-- Buffers ------------------------------------------------------------------------------------------------------

/-- A buffer of pool `p` is allocated to a function, if the pool's free list has one (R289). -/
def State.allocFrom (s : State) (p fid : Nat) : Option (Nat × State) :=
  if !s.bpm.live then none
  else match s.takeFree? p with
    | some (i, q) =>
      let k := bufKey p i
      some (k, ((s.setPool p q).setBuf k { s.buf k with state := 1, owners := [fid] }).bump Reg.totalAllocs 0 32)
    | none => none

/-- Pools that a request of `n` bytes tries, smallest first (R289). -/
def State.fitting (s : State) (n : Nat) : List Nat :=
  (List.range 8).filter fun p => decide (n ≤ poolSize p) && s.poolCount p != 0

/-- A BUF_ALLOC in progress: its packet, its pair and the pools still to try. -/
structure AllocReq where
  pkt : Packet
  pair : Nat
  pools : List Nat
deriving DecidableEq, Repr

/-- One cycle of one request: served by its pool, or moved to the next larger; with no pool left the packet
completes POOL_EMPTY (R289, R290). -/
def State.allocTry (s : State) (r : AllocReq) : State × Option AllocReq :=
  match r.pools with
  | [] => (s.refuse r.pkt ⟨0x13, 0x0304, 0⟩, none)
  | p :: rest =>
    match s.allocFrom p r.pkt.fid with
    | some (k, s1) =>
      let a := s1.bufAddr k
      (s1.done r.pkt [mkHandle k (s1.buf k).gen, loW p, loW a, hiW a], none)
    | none =>
      if rest.isEmpty then (s.refuse r.pkt ⟨0x13, 0x0304, 0⟩, none) else (s, some { r with pools := rest })

/-- The pool has nothing on its free list. -/
def State.poolEmpty (s : State) (p : Nat) : Bool := !s.bpm.live || (s.takeFree? p).isNone

/-- A tied cycle (R290): the pair that RR_NEXT names is served first, RR_NEXT names the other; the second
request stays at the pool for the next cycle, or moves on where the first left the free list empty. -/
def State.allocTie (s : State) (x y : AllocReq) (p : Nat) : State × Option AllocReq × Option AllocReq :=
  let q := s.pool p
  let s0 := s.setPool p { q with rrNext := !q.rrNext }
  let (f, l) := if b2n q.rrNext == x.pair then (x, y) else (y, x)
  let (s1, f1) := s0.allocTry f
  if s1.poolEmpty p then
    let (s2, l1) := s1.allocTry l
    (s2, f1, l1)
  else (s1, f1, some l)

/-- Cycles of up to two requests until both are answered; `n` bounds the cycles, two per pool and more. -/
def State.allocRun (n : Nat) (s : State) (x y : Option AllocReq) : State :=
  match n with
  | 0 => s
  | n + 1 =>
    match x, y with
    | none, none => s
    | some a, none => let (s1, a1) := s.allocTry a; State.allocRun n s1 a1 none
    | none, some b => let (s1, b1) := s.allocTry b; State.allocRun n s1 none b1
    | some a, some b =>
      if a.pools.head? == b.pools.head? && a.pools.head?.isSome then
        let (s1, a1, b1) := s.allocTie a b (a.pools.headD 0)
        State.allocRun n s1 a1 b1
      else
        let (s1, a1) := s.allocTry a
        let (s2, b1) := s1.allocTry b
        State.allocRun n s2 a1 b1

/-- BUF_ALLOC's check (R289). -/
def allocChecks (p : Packet) : List (Option Refuse) :=
  [need (decide (1 ≤ (p.p 0).toNat) && decide ((p.p 0).toNat ≤ 8388608)) (badParam 0x0307 0)]

/-- A context's BUF_ALLOC as a request; a refused one ends here. -/
def State.allocReq (s : State) (c : Ctx) : State × Option AllocReq :=
  match s.packetIn c 0x50 with
  | none => (s, none)
  | some p =>
    match firstRefusal (allocChecks p) with
    | some r => (s.refuse p r, none)
    | none => (s, some { pkt := p, pair := c.pair.val, pools := s.fitting (p.p 0).toNat })

/-- The first `n` cycles of a request that is alone in them. -/
def State.allocAlone (n : Nat) (s : State) (x : Option AllocReq) : State × Option AllocReq :=
  match n, x with
  | n + 1, some a => let (s1, a1) := s.allocTry a; State.allocAlone n s1 a1
  | _, _ => (s, x)

/-- BUF_ALLOC (R289, R290): alone, or with the other pair's BUF_ALLOC that reaches the BPM in the same or a later cycle. -/
def execBufAlloc (c : Ctx) (rival : Option AllocRival) (s : State) : Res :=
  let (s1, x) := s.allocReq c
  match rival with
  | some d =>
    if d.ctx.pair == c.pair then .next (State.allocRun 24 s1 x none)
    else
      let (s2, x2) := State.allocAlone (min d.after 8) s1 x
      let (s3, y) := s2.allocReq d.ctx
      .next (State.allocRun 24 s3 x2 y)
  | none => .next (State.allocRun 24 s1 x none)

/-- BUF_FREE (R293): a refused free logs an event that names the function. -/
def execBufFree (c : Ctx) (s : State) : Res :=
  match s.packetIn c 0x51 with
  | none => .next s
  | some p =>
    match s.checkHandle p.fid (p.p 0) 0 with
    | some r => .next (((s.bumpSat Reg.freeRefused 0 32 1).protoEvent p.fid p.q).refuse p r)
    | none =>
      let k := handleKey (p.p 0)
      let s1 := s.dropOwner k p.fid
      .next (s1.done p [loW (s1.buf k).owners.length, 0, 0, 0])

/-- The checks of BUF_SHARE (R292); a FID that is an owner already needs no more than the handle's. -/
def State.shareChecks (s : State) (p : Packet) : List (Option Refuse) :=
  let b := s.buf (handleKey (p.p 0))
  let f := fld (p.p 1) 0 7
  [s.checkHandle p.fid (p.p 0) 0,
   need (b.owners.contains f || decide (b.owners.length < 4)) (badParam 0x0308 0),
   need (b.owners.contains f || s.reachable f) (badParam 0x0303 1)]

/-- BUF_SHARE (R292). -/
def execBufShare (c : Ctx) (s : State) : Res :=
  .next (s.atKeystone c 0x52 s.shareChecks fun p =>
    let k := handleKey (p.p 0)
    let b := s.buf k
    let f := fld (p.p 1) 0 7
    let owners := if b.owners.contains f then b.owners else b.owners ++ [f]
    (s.setBuf k { b with owners }).done p [loW owners.length, 0, 0, 0])

/-- BUFFER_CLEAR (R291, R296): a DRAINING buffer with no pins is zeroed and joins the tail of its free list, or
in an AT_RISK group is retired in place of clearing. -/
def execBufferClear (pool : Fin 8) (index : Fin 131072) (s : State) : Res :=
  let k := bufKey pool.val index.val
  let b := s.buf k
  if !s.bpm.live || b.state ≠ 2 || b.pins ≠ 0 then .next s
  else if s.bufAtRisk k then .next (s.retireBuf k)
  else
    let n := poolSize pool.val
    let s1 := { s with mem := s.mem.zeroRange (s.bufAddr k) n }
    let s2 := s1.setBuf k { b with state := 0 }
    let q := s2.pool pool.val
    .next ((s2.setPool pool.val { q with returned := q.returned ++ [index.val] }).bumpPair Reg.writeBytesLo Reg.writeBytesHi n)

-- Segments -----------------------------------------------------------------------------------------------------

/-- Bytes of the segment that starts `at` bytes into a transfer: up to the next 4 KiB boundary of the source
(R298). -/
def Xfer.segLen (x : Xfer) (done : Nat) : Nat := min (4096 - (x.src + done) % 4096) (x.len - done)

/-- Segments read and not yet written: the staging blocks a transfer holds (R298). -/
def Xfer.blocks (x : Xfer) : Nat :=
  if x.written < x.issued then (x.src + x.issued - 1) / 4096 - (x.src + x.written) / 4096 + 1 else 0

/-- Staging blocks of a channel. -/
def Channel.blocks (c : Channel) : Nat := match c.xfer with | some x => x.blocks | none => 0

/-- Staging blocks in use (DMA.STAGE_USED). -/
def State.stageUsed (s : State) : Nat := (s.dma.map fun e => e.2.blocks).foldl (· + ·) 0

/-- Segment reads outstanding on a port, or of device memory (`port` none). -/
def State.readsOut (s : State) (port : Option Nat) : Nat :=
  (s.dma.map fun e => match e.2.xfer with
    | some x => if (if x.srcBus then port == some (portOf e.2.owner) else port.isNone) then x.blocks else 0
    | none => 0).foldl (· + ·) 0

/-- A report of a channel's fault (R372). -/
def State.chanReport (s : State) (n code reaction : Nat) : Report :=
  { Report.of (0x0600 + n) code with fid := some (s.chan n).owner, reaction }

/-- A channel halts: its kick ends as `f` says, and its source is raised (R307, R308, Table 14-1). -/
def State.haltChan (s : State) (n cause reason : Nat) (f : State → Packet → State) : State :=
  let s1 := s.setChan n { s.chan n with haltCause := cause, haltReason := reason }
  (s1.endKick n 3 f).raise (512 + n)

/-- The channel has a segment that can be granted now (R299, R300). -/
def State.segReady (s : State) (c : Channel) : Bool :=
  match c.xfer with
  | some x =>
    c.state == 1 && !c.stopping && decide (x.issued < x.len) && decide (x.blocks < 64) && decide (s.stageUsed < 1024) &&
      s.reachable c.owner &&
      (if x.srcBus then decide (s.readsOut (some (portOf c.owner)) < 512) else decide (s.readsOut none < 256))
  | none => false

/-- STARVE_LIMIT of an ARB_CFG; 0 acts as 1 (Table 12-11). -/
def State.starveLimit (s : State) (off : Nat) : Nat := max 1 (s.regF off 0 8)

/-- Best of a list of requesters by two keys, the greater first, then the lower number. -/
def bestOf (xs : List (Nat × Nat × Nat)) : Option Nat :=
  (xs.foldl (fun (acc : Option (Nat × Nat × Nat)) x =>
    match acc with
    | some y =>
      if x.2.1 > y.2.1 || (x.2.1 == y.2.1 && (x.2.2 > y.2.2 || (x.2.2 == y.2.2 && x.1 < y.1))) then some x else acc
    | none => some x) none).map (·.1)

/-- The read of a channel's segment is issued: a block is taken, a bus read goes out (R298). -/
def State.issueSegment (s : State) (n : Nat) : State :=
  let c := s.chan n
  match c.xfer with
  | some x =>
    let len := x.segLen x.issued
    let s1 := s.setChan n { c with starve := 0, xfer := some { x with issued := x.issued + len } }
    let s2 := if x.srcBus then s1.emitRead c.owner (x.src + x.issued) len else s1
    s2.raisePeak Reg.stagePeak 0 11 s2.stageUsed
  | none => s

/-- CHANNEL_ARBITER_DECISION (R300, R117): one segment is granted; a channel at STARVE_LIMIT goes ahead of
PRIO and sets STARVED. -/
def execChannelArbiterDecision (s : State) : Res :=
  if s.inGf then .next s
  else
    let ws := s.dma.filter fun e => s.segReady e.2
    let starved := ws.filter fun e => decide (s.starveLimit Reg.dmaArbCfg ≤ e.2.starve)
    let pick := if starved.isEmpty then bestOf (ws.map fun e => (e.1, e.2.prio, e.2.starve))
                else bestOf (starved.map fun e => (e.1, e.2.starve, 0))
    match pick with
    | none => .next s
    | some n =>
      let s1 := ws.foldl (fun st e =>
        if e.1 = n then st else st.setChan e.1 { st.chan e.1 with starve := e.2.starve + 1 }) s
      let s2 :=
        if starved.isEmpty then s1
        else
          let r := s1.raiseB Reg.dmaArbCfg 31
          ((r.setRegF Reg.dmaArbCfg 16 6 n).setRegF Reg.dmaArbCfg 22 2 (n / 64)).raise 963
      .next (s2.issueSegment n)

/-- A segment met a bus error: it is read again, and when its last retry has failed the channel halts (R308). -/
def State.segmentError (s : State) (n : Nat) (fromMemory : Bool) : State :=
  let c := s.chan n
  let count := s.regF Reg.chRetry 0 4
  let s0 := if c.retried = 0 then s.bumpSat Reg.busErrors 0 32 1 else s
  if c.retried < count then
    let s1 := (s0.setChan n { c with retried := c.retried + 1 }).bumpSat Reg.retries 0 32 1
    match c.xfer with
    | some x => if x.srcBus && !fromMemory then s1.emitRead c.owner (x.src + x.written) (x.segLen x.written) else s1
    | none => s1
  else
    let s1 := s0.setChan n { c with retriesUsed := count, retried := 0 }
    let s2 := s1.haltChan n 1 0 State.abort
    let r := s2.chanReport n (if fromMemory then 0x0602 else 0x0601) 2
    (s2.merging r true fun st => st.report r).st

/-- A segment's data is written to its destination and its block freed (R298). After the last write to a bus address the
transfer's arrival is proven by a zero-length read where BARRIER asks for it, or at the last transfer of a kick (R305). -/
def State.writeSegment (s : State) (n : Nat) (c : Channel) (x : Xfer) (bs : List Byte) : State :=
  let k := bs.length
  let s0 := if x.dstBus then s.emitWrite c.owner (x.dst + x.written) bs else s.store (x.dst + x.written) bs
  let s1 := if x.dstBus && (x.barrier || c.left ≤ 1) && x.written + k == x.len then s0.emitFlush c.owner (x.dst + x.len - 1)
    else s0
  let s2 := s1.setChan n { c with retried := 0, xfer := some { x with written := x.written + k } }
  ((s2.bumpPair Reg.readBytesLo Reg.readBytesHi k).bumpPair Reg.writeBytesLo Reg.writeBytesHi k).settleStop n

/-- SEGMENT_RETURN (R298): the oldest segment in flight returns. Device memory is read here, where a poisoned
line is a bus error (R308); `data` is what a bus read returned. -/
def execSegmentReturn (ch : Fin 256) (data : List Byte) (s : State) : Res :=
  let n := ch.val
  let c := s.chan n
  match c.xfer with
  | none => .next s
  | some x =>
    let len := x.segLen x.written
    if x.issued ≤ x.written then .next s
    else if x.srcBus then
      if data.length = len then .next (s.writeSegment n c x data) else .next s
    else if s.mem.poisonIn (x.src + x.written) len then .next (s.segmentError n true)
    else .next (s.writeSegment n c x (s.mem.readN (x.src + x.written) len))

/-- BUS_ERROR (R308). On a channel that an injected fault of this cycle halted it is recorded as R385 says. -/
def execBusError (ch : Fin 256) (fromMemory : Bool) (s : State) : Res :=
  if (s.chan ch.val).inFlight then .next (s.segmentError ch.val fromMemory)
  else .next (s.mergeLate (s.chanReport ch.val (if fromMemory then 0x0602 else 0x0601) 2))

/-- STAGING_PARITY_ERROR (R372): the segment is read again from its source. -/
def execStagingParityError (ch : Fin 256) (s : State) : Res :=
  let c := s.chan ch.val
  match c.xfer with
  | some x =>
    if x.written < x.issued then
      let s1 := s.log (s.chanReport ch.val 0x0603 0)
      .next (if x.srcBus && !s1.inGf then s1.emitRead c.owner (x.src + x.written) (x.segLen x.written) else s1)
    else .next s
  | none => .next s

-- Descriptors --------------------------------------------------------------------------------------------------

/-- Fields of a descriptor (Table 13-8). -/
def dBarrier (d : List Word) : Bool := bit (wd d 0) 31
def dChain (d : List Word) : Bool := bit (wd d 0) 30
def dIrq (d : List Word) : Bool := bit (wd d 0) 29
def dTrigSrc (d : List Word) : Nat := fld (wd d 0) 27 2
def dTrigId (d : List Word) : Nat := fld (wd d 0) 19 8
def dSrcKind (d : List Word) : Nat := fld (wd d 0) 17 2
def dDstKind (d : List Word) : Nat := fld (wd d 0) 15 2
def dLen (d : List Word) : Nat := fld (wd d 1) 0 25

/-- A link descriptor's other fields are 0 (R306). -/
def linkOk (d : List Word) : Bool :=
  wd d 0 == 0x40000000 && wd d 1 == 0 && allZero (d.drop 4)

/-- Reserved fields, kinds, triggers and LENGTH of a transfer (R303, R307). -/
def transferOk (d : List Word) : Bool :=
  fld (wd d 0) 0 15 == 0 && fld (wd d 1) 25 7 == 0 && wd d 7 == 0 && decide (dTrigSrc d ≤ 2) &&
    (dTrigSrc d != 1 || decide (dTrigId d < 64)) && decide (dSrcKind d ≤ 1) && decide (dDstKind d ≤ 1) &&
    decide (1 ≤ dLen d) && decide (dLen d ≤ 16777216) &&
    (dSrcKind d == 0 || decide (pair64 (wd d 3) (wd d 2) + dLen d ≤ 2 ^ 64)) &&
    (dDstKind d == 0 || decide (pair64 (wd d 5) (wd d 4) + dLen d ≤ 2 ^ 64))

/-- A reference of a descriptor under R79; every refusal names word 1 of the kick (R302, R307). -/
def State.descRef (s : State) (fid : Nat) (h off : Word) (n : Nat) : Option Refuse :=
  (s.checkRef fid h off n 1)

/-- What a loaded transfer fails, if it fails (R307). -/
def State.transferFault (s : State) (fid : Nat) (d : List Word) : Option Refuse :=
  if !transferOk d then some (badParam 0x0301 1)
  else
    match (if dSrcKind d = 0 then s.descRef fid (wd d 2) (wd d 3) (dLen d) else none) with
    | some r => some r
    | none => if dDstKind d = 0 then s.descRef fid (wd d 4) (wd d 5) (dLen d) else none

/-- DONE_TOTAL of the channel has reached the count (R304). -/
def State.countReached (s : State) (ch count : Nat) : Bool :=
  decide (((s.chan ch).doneTotal + 2 ^ 32 - count) % 2 ^ 32 < 2 ^ 31)

/-- Waiting channels whose trigger is a channel count that has been reached run on (R304). -/
def State.releaseCounts (s : State) : State :=
  { s with dma := s.dma.mapIf (fun _ c => c.state == 2 && match c.trig with
      | some (2, ch, n) => s.countReached ch n
      | _ => false) fun c => { c with state := 1, trig := none } }

/-- Waiting channels whose trigger is timer `n` run on at its expiry (R304). -/
def State.releaseTimer (s : State) (n : Nat) : State :=
  { s with dma := s.dma.mapIf (fun _ c => c.state == 2 && match c.trig with
      | some (1, t, _) => t == n
      | _ => false) fun c => { c with state := 1, trig := none } }

/-- A refusal while loading: the channel halts and the kick completes with it (R306, R307). -/
def State.descHalt (s : State) (n cause : Nat) (r : Refuse) : State :=
  (s.bumpSat Reg.descErrors 0 32 1).haltChan n cause r.reason fun u p => u.refuse p r

/-- A link descriptor: the next descriptor is the one it names (R306). -/
def State.followLink (s : State) (n : Nat) (d : List Word) : State :=
  let c := s.chan n
  if !linkOk d then s.descHalt n 2 (badParam 0x0301 1)
  else if c.links ≥ 63 then s.descHalt n 3 (badParam 0x0301 1)
  else match s.descRef c.owner (wd d 2) (wd d 3) 32 with
    | some r => s.descHalt n 2 r
    | none =>
      let k := handleKey (wd d 2)
      (s.pin k).setChan n { c with desc := s.refAddr (wd d 2) (wd d 3), descBuf := k, links := c.links + 1, pins := k :: c.pins }

/-- A transfer descriptor is loaded: its buffers are pinned and it runs or waits for its trigger (R303, R304). -/
def State.loadTransfer (s : State) (n : Nat) (d : List Word) : State :=
  let c := s.chan n
  match s.transferFault c.owner d with
  | some r => s.descHalt n 2 r
  | none =>
    let pins := (if dSrcKind d = 0 then [handleKey (wd d 2)] else []) ++ (if dDstKind d = 0 then [handleKey (wd d 4)] else [])
    let x : Xfer :=
      { barrier := dBarrier d, irq := dIrq d, srcBus := dSrcKind d == 1, dstBus := dDstKind d == 1,
        src := if dSrcKind d = 1 then pair64 (wd d 3) (wd d 2) else s.refAddr (wd d 2) (wd d 3),
        dst := if dDstKind d = 1 then pair64 (wd d 5) (wd d 4) else s.refAddr (wd d 4) (wd d 5),
        len := dLen d, issued := 0, written := 0, pins }
    let wait := dTrigSrc d = 1 || (dTrigSrc d = 2 && !s.countReached (dTrigId d) (wd d 6).toNat)
    (s.pinAll pins).setChan n
      { c with desc := c.desc + 32, links := 0, xfer := some x, state := if wait then 2 else 1,
               trig := if wait then some (dTrigSrc d, dTrigId d, (wd d 6).toNat) else none }

/-- DESCRIPTOR_LOAD (R303–R307): a RUNNING channel with no transfer loads its next descriptor. One that its
buffer does not hold is a reference past the buffer's end. -/
def execDescriptorLoad (ch : Fin 256) (s : State) : Res :=
  let n := ch.val
  let c := s.chan n
  if s.inGf || c.state ≠ 1 || c.xfer.isSome || c.stopping || c.left = 0 then .next s
  else if c.desc + 32 > s.bufAddr c.descBuf + poolSize (c.descBuf / 131072) then
    .next (s.descHalt n 2 (badParam 0x0301 1))
  else
    let d := s.loadWs c.desc 8
    .next (if dChain d then s.followLink n d else s.loadTransfer n d)

/-- TRANSFER_COMPLETE (R305): every write has been issued, and with BARRIER, or at the last transfer of a kick,
has arrived. -/
def execTransferComplete (ch : Fin 256) (s : State) : Res :=
  let n := ch.val
  let c := s.chan n
  match c.xfer with
  | none => .next s
  | some x =>
    if x.written < x.len || c.state ≠ 1 then .next s
    else
      let total := c.bytes + x.len
      let idx := (c.descIndex + 1) % 65536
      let s1 := (s.unpinAll x.pins).setChan n
        { c with xfer := none, descIndex := idx, doneTotal := (c.doneTotal + 1) % 2 ^ 32, left := c.left - 1,
                 bytes := total }
      let s2 := s1.releaseCounts
      let s3 := if c.left ≤ 1 then s2.endKick n 0 fun u p => u.done p [loW idx, loW total, hiW total, 0] else s2
      .next (if x.irq then s3.raise (512 + n) else s3)

-- Kicks and commands -------------------------------------------------------------------------------------------

/-- The packet leaves its context and waits in state `st`. -/
def State.leaveCtx (s : State) (c : Ctx) (p : Packet) (st : PState) : State := (s.freeCtx c).setPState p.id st

/-- The checks of DMA_KICK (R302). -/
def State.kickChecks (s : State) (p : Packet) : List (Option Refuse) :=
  let ch := (p.p 0).toNat
  let c := s.chan ch
  [need (decide (ch < 256)) (badParam 0x070A 0), need (c.assigned && c.owner == p.fid) ⟨0x12, 0x0705, 0⟩,
   s.checkRef p.fid (p.p 1) (p.p 2) ((p.p 3).toNat * 32) 1,
   need (decide (1 ≤ (p.p 3).toNat) && decide ((p.p 3).toNat ≤ 65535)) (badParam 0x070A 3)]

/-- A kick joins those that wait behind the running one, in fetch order (R302). -/
def inTurn (kicks : List Nat) (id : Nat) : List Nat :=
  match kicks with
  | [] => [id]
  | k :: rest => k :: (rest.filter fun j => decide (j < id)) ++ id :: rest.filter fun j => decide (id < j)

/-- DMA_KICK (R302): the kick joins its channel, runs at once on an IDLE one, and completes ABORTED on a HALTED
one. -/
def execDmaKick (c : Ctx) (s : State) : Res :=
  .next (s.atKeystone c 0x60 s.kickChecks fun p =>
    let n := (p.p 0).toNat
    let ch := s.chan n
    if s.behindEarlier p fun r => r.opc == 0x60 && r.p 0 == p.p 0 then s
    else if ch.state = 3 then s.abort p
    else
      let s1 := (s.leaveCtx c p (.kick n)).pin (handleKey (p.p 1))
      let s2 := s1.setChan n { ch with kicks := inTurn ch.kicks p.id }
      if ch.kicks.isEmpty then s2.startKick n else s2)

/-- A write of DMA.CH_CMD (Table 13-7): CLEAR of a HALTED channel and STOP, from the selected channel's owner
only; another function's write is dropped and logged. -/
def State.chCmdWrite (s : State) (a : Agent) (v : Word) : State :=
  let n := fld (s.window a.code Reg.chSel).sel 0 8
  let c := s.chan n
  if !(bit v 31 || bit v 30) then s
  else if !(c.assigned && a.fid? == some c.owner) then s.protoEventA a Reg.chCmd
  else
    let s1 := if bit v 31 && c.state = 3 then s.setChan n { c with state := 0, haltCause := 0, haltReason := 0 } else s
    if bit v 30 then s1.stopChan n else s1

end Sys2Proof.Machine
end

