-- ==== Sys2Proof/Machine/RateControl.lean ====
section
/-! DEFINITION. Rate control (R171–R190): the start of a step, a decision, budget close, and what a crossing
leaves behind. The bit counts are the lanes' own and come with the piers. -/

namespace Sys2Proof.Machine

/-- Sum of a list. -/
def sumL (xs : List Nat) : Nat := xs.foldl (· + ·) 0

/-- Decision rows of a step coded by `g` spans (R172): the rows of each span's share, joined by their place. -/
def decisionRows (codec : Nat) (d : StepDesc) (g : Nat) : List (List RowShare) :=
  let shares := (List.range g).map fun j => shareRows codec d g j
  let n := (shares.map List.length).foldl max 0
  (List.range n).map fun i => shares.filterMap fun s => s[i]?

/-- Rows in span `j`'s share of a step. -/
def shareLen (codec : Nat) (d : StepDesc) (g j : Nat) : Nat := (shareRows codec d g j).length

/-- QB: the QP of lane B (R171). -/
def StepRun.qb (r : StepRun) (u : Nat) : Nat :=
  (clampI r.rates.qpMin r.rates.qpMax (r.q + r.o * u)).toNat

/-- Units of decision rows after row `i` (Table 08-3). -/
def StepRun.urem (r : StepRun) (i : Nat) : Nat := sumL (r.units.drop (i + 1))

/-- The last decision row has been decided. -/
def StepRun.finished (r : StepRun) : Bool := decide (r.units.length ≤ r.row)

/-- BF of a step at its frame's start (R184), `x` being X of Table 08-5 as a fraction in [1/4, 4]. -/
def frameBudget (mode : Nat) (d : StepDesc) (rcN rcNp full : Nat) (repay : Int) (x : Nat × Nat) : Int :=
  match mode with
  | 0 => rcN - repay
  | 1 =>
    let a : Int := (roundDiv (rcN * x.1) x.2 : Nat) - repay
    max (min a ((d.bufBits : Int) - full + rcNp)) (rcN / 4 : Nat)
  | 3 => min (rcN - repay) rcNp
  | _ => rcN

/-- Rounded half up, of a nonnegative product with a possibly negative budget. -/
def roundHalfUp (a : Int) (b : Nat) : Int := (2 * a + b) / (2 * b)

/-- RC_DEBT, RC_FULLNESS and NEXT_QP of a step as its frame starts, after R190 where the rate fields are new. -/
def StepMem.atStart (m : StepMem) (d : StepDesc) (rcN : Nat) : Int × Nat × Nat :=
  if m.rates == some d then (m.debt, m.full, m.qp)
  else (clampI (-(16 * rcN : Nat)) (16 * rcN : Nat) m.debt, min m.full d.bufBits, clampN d.qpMin d.qpMax m.qp)

/-- A step's memory once a frame with these rate fields has started: what R190 clamps stays clamped. -/
def StepMem.started (m : StepMem) (d : StepDesc) (rcN : Nat) : StepMem :=
  let (debt, full, qp) := m.atStart d rcN
  { m with debt, full, qp, rates := some d }

/-- Inputs of a step's start that come from the frame: intra, pyramid layer, no full crossing yet. -/
structure StartOf where
  mode : Nat
  u : Nat
  /-- QP_INIT as the last SESS_ENABLE found it (R190). -/
  qpInit : Nat
  intra : Bool
  layer : Nat
  first : Bool
  x : Nat × Nat
deriving DecidableEq, Repr

/-- The start of a step at its frame's grant (R184). -/
def startStep (st : StartOf) (d : StepDesc) (rcN rcNp : Nat) (m : StepMem) (rows : List (List RowShare))
    (w : List Nat) : StepRun :=
  let (debt, full, qp) := m.atStart d rcN
  let repay := clampI (-(rcN / 8 : Nat)) (rcN / 2 : Nat) debt
  let bf := frameBudget st.mode d rcN rcNp full repay st.x
  let n := max 1 rows.length
  let ravg := (max 0 (roundHalfUp bf n)).toNat
  let base := if st.first then st.qpInit else if st.intra then qp + 4 * st.u else qp + st.layer * st.u
  let q := if st.mode = 2 then st.qpInit else clampN d.qpMin d.qpMax base
  let o : Int := if debt ≥ 0 then 2 else -2
  { rates := d, rcN, rcNp, repay := if st.mode = 2 then 0 else repay, bf, ravg, h := roundDiv ravg 32, w,
    units := rows.map fun r => sumL (r.map (·.units)), samples := rows.map fun r => sumL (r.map (·.samples)),
    q0 := q, o0 := o, s := 0, q, o, closed := none, row := 0, kept := [], qpSum := 0, baseQ := q }

/-- The step at its start again, for a replay (R178). -/
def StepRun.restart (r : StepRun) : StepRun :=
  { r with s := 0, q := r.q0, o := r.o0, closed := none, row := 0, kept := [], qpSum := 0, baseQ := r.q0 }

/-- A row whose bits are kept: S, the row's record and the QP mean move on. -/
def StepRun.keep (r : StepRun) (bits qp : Nat) : StepRun :=
  { r with s := r.s + bits, kept := r.kept ++ [bits], row := r.row + 1,
           qpSum := r.qpSum + qp * r.samples.getD r.row 0 }

/-- T of decision row `i` (R185). -/
def StepRun.planned (r : StepRun) (i : Nat) : Int :=
  roundHalfUp (r.bf * (sumL (r.w.take (i + 1)) : Nat)) (max 1 (sumL r.w))

/-- over(b) of R185: keeping `b` bits in row `i` would break the limit. -/
def StepRun.over (r : StepRun) (mode i b : Nat) : Bool :=
  if mode = 3 then decide (((r.s + b : Nat) : Int) > (r.rcNp : Int) - (48 * r.urem i : Nat))
  else decide (((r.s + b : Nat) : Int) > r.bf)

/-- The row's decision keeps lane B (R185). -/
def StepRun.keepsB (r : StepRun) (mode u bA bB : Nat) : Bool :=
  let live := r.qb u != r.q
  let t := r.planned r.row
  let eA : Int := ((r.s + bA : Nat) : Int) - t
  let eB : Int := ((r.s + bB : Nat) : Int) - t
  let first := live && decide ((eB.natAbs + r.h : Nat) < eA.natAbs)
  if live && r.over mode r.row (if first then bB else bA) && !r.over mode r.row (if first then bA else bB) then !first else first

/-- A decision of an open row (R185): the step after it, and whether it changes the inputs of the next row, so
that run-ahead is squashed (R174). -/
def StepRun.decideRow (r : StepRun) (mode u bA bB : Nat) : StepRun × Bool :=
  if mode = 2 then (r.keep bA r.q, false)
  else
    let i := r.row
    let qb := r.qb u
    let t := r.planned i
    let eA : Int := ((r.s + bA : Nat) : Int) - t
    let eB : Int := ((r.s + bB : Nat) : Int) - t
    let keepB := r.keepsB mode u bA bB
    let bits := if keepB then bB else bA
    if r.over mode i bits then ({ r with closed := some i }, true)
    else
      let e := if keepB then eB else eA
      let k := r.keep bits (if keepB then qb else r.q)
      let last := decide (r.units.length ≤ i + 1)
      if mode != 3 && !last && decide (r.bf - (k.s : Int) < (48 * r.urem i : Nat)) then
        ({ k with closed := some (i + 1), baseQ := r.q }, true)
      else
        let m : Int := clampI 1 6 (1 + (if r.ravg = 0 then 6 else (4 * e.natAbs / r.ravg : Nat)))
        if keepB then ({ k with q := qb, baseQ := qb, o := if e = 0 then r.o else sgn e * m }, true)
        else if sgn e = -(sgn r.o) ∧ e.natAbs > r.h then ({ k with baseQ := r.q, o := -(sgn r.o) * m }, true)
        else ({ k with baseQ := r.q }, false)

/-- A closed row ends: at QP_MAX in lane A only, with no decision (R186). -/
def StepRun.closedRow (r : StepRun) (bA : Nat) : StepRun := r.keep bA r.rates.qpMax

/-- LAST_QP: the sample-weighted mean of the kept rows' lane QPs, rounded half up (R188). -/
def StepRun.meanQp (r : StepRun) : Nat := roundDiv r.qpSum (max 1 (sumL r.samples))

/-- drain of R188. -/
def drainOf (mode rcN rcNp : Nat) : Nat := if mode = 0 then rcN else rcNp

/-- A step's memory after a full crossing (R188); in CQP NEXT_QP stays the QP_INIT that SESS_ENABLE found. -/
def StepMem.afterFull (m : StepMem) (r : StepRun) (mode u : Nat) (intra : Bool) (layer : Nat) : StepMem :=
  let d := r.rates
  if mode = 2 then { m with debt := 0, full := 0, rowBits := r.kept, rowBitsOk := !intra }
  else
    let debt := clampI (-(16 * r.rcN : Nat)) (16 * r.rcN : Nat) (m.debt - r.repay + ((r.s : Int) - r.bf))
    let full := m.full + r.s - drainOf mode r.rcN r.rcNp
    let base := if intra || layer != 0 then m.qp else r.baseQ
    let adj : Int := sgn debt * (min 6 (if r.ravg = 0 then 6 else 4 * debt.natAbs / r.ravg) : Nat)
    { m with debt, full, qp := (clampI d.qpMin d.qpMax ((base : Int) + adj * u)).toNat, rowBits := r.kept,
             rowBitsOk := !intra && r.closed.isNone }

/-- A step's memory after an empty crossing (R189). -/
def StepMem.afterEmpty (m : StepMem) (mode rcN rcNp : Nat) : StepMem :=
  if mode = 2 then m else { m with full := m.full - drainOf mode rcN rcNp }

end Sys2Proof.Machine
end

