-- ==== Sys2Proof/Machine/Frames.lean ====
section
/-! DEFINITION. Frames between their packet and their crossing: home-group schedulers, the empty crossing
(R23), packets that wait for earlier frames (R209–R211), and the grant of a frame (R109, R145, R146, R184,
R192, R193, R202). -/

namespace Sys2Proof.Machine

-- Groups -------------------------------------------------------------------------------------------------------

/-- Key of a home group's scheduler: kind, log2 of the gang size, index. -/
def groupKey (k : SpanKind) (lg i : Nat) : Nat := kindIx k * 64 + lg * 16 + i

/-- A group's scheduler. -/
def State.group (s : State) (g : Nat) : Group := s.span.groups.get g Group.reset

/-- The state with a group's scheduler replaced. -/
def State.setGroup (s : State) (g : Nat) (x : Group) : State :=
  { s with span := { s.span with groups := s.span.groups.put g x } }

/-- The kind of a frame's spans. -/
def Frame.kind (f : Frame) : SpanKind := if f.decode then .dec else .enc

/-- The frame has been granted a gang and has not crossed. -/
def Frame.isGranted (f : Frame) : Bool := f.stage != .waiting

/-- The frame's gang is released: its group can decide anew, and a grant that ran past its slot's window is
counted (R113). -/
def State.releaseGang (s : State) (f : Frame) : State :=
  let g := groupKey f.kind f.group.1 f.group.2
  let x := s.group g
  if x.holder == some f.id then
    let s1 := s.setGroup g { x with holder := none, idleSince := s.now }
    match f.slotEnd with
    | some e => if e < s.now then s1.bumpSat Reg.schedCfg 8 16 1 else s1
    | none => s1
  else s

/-- The frame holds a picture: an encode frame, or a decode unit of nonzero length (R23, R219). -/
def Frame.holdsPicture (f : Frame) : Bool := !f.decode || f.length != 0

/-- A frame leaves the device: its gang, pins, key and slot claims go with it (R113, R204, R227, R294). -/
def State.dropFrame (s : State) (f : Frame) : State :=
  let s1 := (s.releaseGang f).unpinAll f.bufs
  let s2 := match f.keySlot with
    | some k => s1.releaseKey k
    | none => s1
  let s3 := s2.setFrames (s2.span.frames.filter fun g => g.id != f.id)
  let s4 := { s3 with span := { s3.span with claims := s3.span.claims.filter fun c => c.frame != f.id } }
  if !f.decode then s4
  else if f.holdsPicture then { s4 with mem := s4.mem.ended f.id }
  else { s4 with mem := s4.mem.settled f.id }

-- Snapshot records ---------------------------------------------------------------------------------------------

/-- Rate-control memory of a step (R182). -/
def Session.mem (x : Session) (k : Nat) : StepMem :=
  x.stepMem.get k
    { debt := 0, full := 0, qp := match x.enabledSteps[k]? with | some d => d.qpInit | none => 0, rates := x.enabledSteps[k]?,
      rowBits := [], rowBitsOk := false }

/-- The fields of a record that every crossing writes (Table 02-2, "all"); rate control reads 0 for decode. -/
def recordAll (r : List Word) (enc : Bool) (m : StepMem) (now status tag : Nat) : List Word :=
  let r1 := setWd (setWd (setWd r 0 (wd r 0 + 1)) 1 (loW now)) 2 (hiW now)
  let r2 := setWd r1 3 (at_ 16 status ||| at_ 0 tag)
  let r3 := if status = 0x22 then setWd r2 12 (setFld (wd r2 12) 0 16 (satInc 16 (fld (wd r2 12) 0 16))) else r2
  if enc then setWd (setWd (setWd r3 5 (setFld (wd r3 5) 8 8 m.qp)) 6 (ofI m.debt)) 7 (loW m.full) else r3

/-- A step's rate fields as a frame carries them (R140). -/
def Frame.rate (f : Frame) (x : Session) (k : Nat) (d : StepDesc) : StepDesc := (f.rates[k]?).getD ((x.steps[k]?).getD d)

/-- Session `x` after an empty crossing of one of its frames (R23, R35, R189). -/
def Session.crossEmpty (x : Session) (f : Frame) (now status tag : Nat) : Session :=
  let y := { x with crossings := x.crossings + 1, aborts := x.aborts + (if status = 0x20 then 1 else 0),
                    nextIntra := x.nextIntra || f.tookNext }
  (x.steps.zipIdx).foldl (fun z (d, k) =>
    let r := f.rate x k d
    let m := if x.isEnc then (z.mem k).afterEmpty x.rcMode (x.frameBits r.target) (x.frameBits r.peak) else z.mem k
    { z with snap := z.snap.put k (recordAll (z.snapRec k) x.isEnc m now status tag),
             stepMem := if x.isEnc then z.stepMem.put k m else z.stepMem }) y

-- Packets that wait for earlier frames -------------------------------------------------------------------------

/-- Earlier work of the session is still to cross: frames of packets fetched before, or bursts with units left. -/
def State.earlierFrames (s : State) (i id : Nat) : Bool :=
  (s.framesOf i).any (fun f => decide (f.packet < id)) ||
    s.qs.packets.any fun p => decide (p.id < id) && p.sessField == i && match p.state with | .burst _ => true | _ => false

/-- A session with every visible set empty and every slot free (R209–R211). -/
def Session.emptied (x : Session) : Session := { x with vis := [] }

/-- A waiting SESS_DISABLE, ENC_FLUSH or DEC_FLUSH takes effect and completes (R209, R210, R211). -/
def State.drainDone (s : State) (p : Packet) : State :=
  let i := p.sessField
  let x := s.session i
  match p.opc with
  | 0x12 =>
    let s1 := s.setSession i { x.emptied with hint := none }
    ((List.range 6).foldl (fun st k => st.settleFlow (flowId i k)) s1).done p [loW x.aborts, loW x.drains, 0, 0]
  | 0x21 =>
    let s1 := if bit (p.p 0) 0 then s.setSession i { x.emptied with nextIntra := true } else s
    s1.done p [loW (x.crossings - p.mark), 0, 0, 0]
  | 0x31 => (s.setSession i { x.emptied with epoch := 0, seqSeen := false, order := 0, recovery := [] }).done p [loW (x.vis.get 0 []).length, 0, 0, 0]
  | _ => s

/-- A frame as its packet's keystone makes it, before anything of it is known. -/
def Frame.ofPacket (p : Packet) (u : Nat) (decode : Bool) : Frame :=
  { id := p.id * 4096 + u, sess := p.sessField, decode, stage := .waiting, deadline := p.deadline, urgent := p.urgent,
    placed := false, protectedHint := p.protectedHint, start := 0, finish := 0, starve := 0, entered := 0, slotEnd := none,
    pts := 0, force := false, sceneCut := false, encSeq := 0, hint := none, hintsOk := 0, hintsBad := 0, bufs := [],
    input := 0, inputOff := 0, pitch := 0, rates := [], num := 0, intra := false, intraCause := 0, layer := 0, top := 0, shadow := [],
    refs := [], run := [], members := [], piers := [], keptRows := [], chains := [], entries := [], stalled := [], arrivals := [], tookNext := false,
    group := (0, 0), condRows := 0, vbCtx := false, conditioned := false, copies := [], analysis := [], aligned := [],
    rowCosts := [], cost := none, firstTick := 0, lastPier := 0, abortAt := none, burst := none, unit := u,
    keySlot := none, outDesc := [], outRef := (0, 0), peer := none, length := 0, rowsDone := 0, concealed := [], flags := 0,
    consumed := 0, sets := [], parser := [], bottom := Samples.none, record := none, staged := [],
    noAnalysis := false }

/-- An ENC_FRAME that no frame stands for yet ends in a crossing: its session is an enabled one of its function, and the checks
that it has not met yet would pass it (R23, R78). -/
def State.crossesAlone (s : State) (p : Packet) : Bool :=
  let x := s.session p.sessField
  p.opc == 0x20 && x.en && x.claimed && x.isEnc && x.owner == p.fid && match p.state with
    | .fetched => (firstRefusal (s.earlyChecks p ++ s.lateChecks p)).isNone
    | .running _ => true
    | _ => false

/-- A packet that ends before it became a frame: an ENC_FRAME ends in an empty crossing all the same (R23), and consumes its
session's hint attachment and its place in the count of R157 (R135). What a DEC_DATA or DEC_BURST unit holds is not known before its keystone, so it makes none
(log 64). -/
def State.crossPacket (s : State) (p : Packet) (status : Nat) : State :=
  if s.crossesAlone p then
    let x := (s.session p.sessField).keepBank s.cyc
    let y := x.crossEmpty { Frame.ofPacket p 0 false with rates := x.steps } s.now status p.tag
    s.setSession p.sessField { y with hint := none, encSeq := y.encSeq + 1 }
  else s

/-- A packet that is no frame ends ABORTED: an ENC_FRAME's completion takes its place as that of a crossing (R23, R28). -/
def State.abortPacket (s : State) (p : Packet) (vals : List Word) : State :=
  ((s.crossPacket p 0x20).produceAt p p.cq 0x20 0 s.now vals (if p.opc = 0x20 then some s.cyc else none)).endPacket p.id

-- Ends ---------------------------------------------------------------------------------------------------------

/-- A frame's completion is produced with the crossing tick, which orders it where it crossed (R28); a burst's packet ends
with its last picture (R67, R69). -/
def State.frameDone (s : State) (f : Frame) (status : Nat) (vals : List Word) : State :=
  match s.packet? f.packet with
  | none => s
  | some p =>
    let s1 := s.produceAt p p.cq status 0 s.now vals (if f.holdsPicture then some s.cyc else none)
    match p.state with
    | .burst left => if left ≤ 1 then s1.endPacket p.id else s1.setPState p.id (.burst (left - 1))
    | _ => s1.endPacket p.id

/-- The tag of a frame's packet. -/
def State.frameTag (s : State) (f : Frame) : Nat := match s.packet? f.packet with | some p => p.tag | none => 0

/-- A corrected fault of the span scheduler naming the session (R110). -/
def State.schedReport (s : State) (f : Frame) (code : Nat) : State :=
  s.log { Report.of (if f.decode then 0x0A01 else 0x0A00) code with
          session := some f.sess, fid := some (s.session f.sess).owner }

/-- Extra Gallery slots of a burst return with its last picture: `f` has left, and no other unit of the session's burst
is left (R208). -/
def State.returnBurst (s : State) (f : Frame) : State :=
  if f.burst.isSome && !(s.framesOf f.sess).any fun g => g.burst.isSome then
    s.setSession f.sess { s.session f.sess with burstExtra := 0 }
  else s

/-- A unit's parameter sets and headers take effect: a valid one, or one discarded and its id marked invalid (R219, R235). -/
def Session.takeSets (x : Session) (f : Frame) : Session :=
  { x with sets := f.sets.foldl (fun (t : Tbl Bool) e => t.put e.1 e.2) x.sets }

/-- Units without a picture that have come to the head of their session complete, their parameter sets in effect (R219,
R233); `n` bounds their number. -/
def State.settleUnits (n : Nat) (s : State) (i : Nat) : State :=
  match n with
  | 0 => s
  | n + 1 =>
    match s.framesOf i with
    | f :: _ =>
      if f.decode && f.length = 0 then
        let v2 := match f.burst with
          | some (u, last) => at_ 31 (b2n last) ||| at_ 0 u
          | none => loW f.consumed
        let s1 := s.setSession i ((s.session i).takeSets f)
        State.settleUnits n (((s1.dropFrame f).returnBurst f).frameDone f 0 [allW, 0, v2, 0]) i
      else s
    | [] => s

/-- Packets of a session that wait for earlier frames complete, in fetch order, as far as those have ended; flows of a
disabled session with nothing left become IDLE (R261). -/
def State.settleDrain (s : State) (i : Nat) : State :=
  let s0 := s.settleUnits (s.framesOf i).length i
  let s1 := (s0.qs.packets.filter fun p => p.state == .draining && p.sessField == i).foldl
    (fun st p =>
      let behind := st.qs.packets.any fun r => r.state == .draining && r.sessField == i && decide (r.id < p.id)
      if behind || st.earlierFrames i p.id then st else st.drainDone p) s0
  (List.range 6).foldl (fun st k => st.settleFlow (flowId i k)) s1

/-- An empty crossing of a frame with a status (R23): the record's "all" fields, rate control as R189, nothing
committed; the completion, and whatever waited for the frame. A unit that holds no coded picture makes no crossing. -/
def State.endEmpty (s : State) (f : Frame) (status : Nat) : State :=
  let s1 := if f.holdsPicture then
      s.setSession f.sess (((s.session f.sess).keepBank s.cyc).crossEmpty f s.now status (s.frameTag f))
    else s
  let s2 := ((s1.dropFrame f).returnBurst f).frameDone f status [0, 0, 0, 0]
  let s3 := if status = 0x22 then s2.schedReport f 0x0A02 else s2
  s3.settleDrain f.sess

/-- A frame ends at its next pier (R179): at once while it waits, at the next decision of its gang while it holds
one or awaits a replay on one; a frame in its tail crosses in full. -/
def State.endAtPier (s : State) (f : Frame) (status : Nat) : State :=
  match f.stage with
  | .tail => s
  | .waiting => s.endEmpty f status
  | _ => s.setFrame { f with abortAt := some status }

/-- Every frame of a session ends at its next pier. -/
def State.endSessionFrames (s : State) (i status : Nat) : State :=
  (s.framesOf i).foldl (fun st f =>
    match st.frame? f.id with
    | some g => st.endAtPier g status
    | none => st) s

/-- A frame ends at once in an empty crossing whatever its stage (R179: a fault without replay, R248, R386). -/
def State.endNow (s : State) (id status : Nat) : State :=
  match s.frame? id with
  | some f => s.endEmpty f status
  | none => s

/-- The second case of R107: a DROP frame that has not crossed at tick DEADLINE + 1. -/
def State.tooLate (s : State) (f : Frame) : Bool :=
  (s.session f.sess).drop && f.deadline != 0 && decide (f.deadline < s.now)

-- Grant --------------------------------------------------------------------------------------------------------

/-- The frame takes the number after the last one held by a frame that crossed in full or is still granted
(R109). -/
def State.nextNumber (s : State) (i : Nat) : Nat :=
  (s.framesOf i).foldl (fun n f => if f.isGranted then max n (f.num + 1) else n) (s.session i).nextNum

/-- A scene cut for this frame: declared by the host or its hints (R137), or by the Mezzanine in Balanced and
Archive mode (R193). -/
def Session.sceneCut (x : Session) (f : Frame) : Bool :=
  f.sceneCut ||
    (x.latency != 0 &&
      match f.cost with
      | some (cf, ic) =>
        match x.costs.find? fun c => c.1 + 1 == f.encSeq with
        | some (_, pcf, pif) => decide (3 * ic ≤ 4 * cf) && decide (2 * pcf < pif)
        | none => false
      | none => false)

/-- A granted intra frame of the session has not crossed: what asked for it is answered. -/
def State.intraAhead (s : State) (i : Nat) : Bool := (s.framesOf i).any fun g => g.isGranted && g.intra

/-- INTRA_CAUSE of a frame at its grant, 0 for an inter frame (R146, Table 07-10). -/
def State.intraCause (s : State) (f : Frame) : Nat :=
  let x := s.session f.sess
  let ahead := s.intraAhead f.sess
  if !x.crossedFull && !ahead then 1
  else if f.force || x.nextIntra then 2
  else if x.intraPeriod != 0 && decide (x.intraPeriod ≤ x.sinceIntra) && !ahead then 3
  else if x.sceneCut f then 4 else 0

-- Coding order -------------------------------------------------------------------------------------------------

/-- The frame is held for lookahead and reordering (R98): too few later frames are there, and no packet that
drains the session stands behind it (R209; log 31). -/
def State.heldBack (s : State) (f : Frame) : Bool :=
  let x := s.session f.sess
  let later := ((s.framesOf f.sess).filter fun g => decide (f.id < g.id)).length
  !f.decode && x.latency != 0 && decide (later < x.lookahead + x.bframes) &&
    !s.qs.packets.any fun p => p.state == .draining && p.sessField == f.sess && decide (f.packet < p.id)

/-- The frames strictly between positions `lo` and `hi` of a pyramid, in coding order: the middle first, then each half, every
frame predicted from the two ends of its run (R145; log 32). -/
def pyramid (fuel depth lo hi : Nat) : List (Nat × Nat × List Nat) :=
  match fuel with
  | 0 => []
  | fuel + 1 =>
    if hi ≤ lo + 1 then []
    else
      let mid := (lo + hi) / 2
      (mid, depth, [lo, hi]) :: (pyramid fuel (depth + 1) lo mid ++ pyramid fuel (depth + 1) mid hi)

/-- The coding order of the frames `seqs`, in order of fetch, after the anchor `base`: the last is the next anchor, and the
others form its pyramid. -/
def codingOrder (base : Option Nat) (seqs : List Nat) : List PlanFrame :=
  let k := seqs.length
  let inner := pyramid 6 1 0 k
  let top := (inner.map fun e => e.2.1).foldl max 0
  let seqAt (p : Nat) : List Nat := if p = 0 then base.toList else (seqs[p - 1]?).toList
  (match seqs.getLast? with
    | some q => [{ seq := q, layer := 0, top, refs := base.toList }]
    | none => []) ++
    inner.flatMap fun (p, layer, refs) => (seqAt p).map fun q => { seq := q, layer, top, refs := refs.flatMap seqAt }

/-- The frames of a session that wait, in order of fetch; burst pictures apart. -/
def State.waitingOf (s : State) (i : Nat) : List Frame :=
  (s.framesOf i).filter fun f => f.stage == .waiting && f.burst.isNone && f.holdsPicture

/-- What the session grants next, in coding order (R145, R98): the rest of the running pyramid; else a new one from the frames
that wait, shortened to the frames present (R209) and to those before an intra frame; alone where the frame is intra or the
session has no pyramid. Nothing while the oldest is held back. -/
def State.codingPlan (s : State) (i : Nat) : List PlanFrame :=
  let x := s.session i
  let ws := s.waitingOf i
  match x.plan.filter fun e => ws.any fun f => f.encSeq == e.seq with
  | e :: r => e :: r
  | [] =>
    match ws with
    | [] => []
    | f :: r =>
      if s.heldBack f then []
      else if x.bframes = 0 || s.intraCause f != 0 then [{ seq := f.encSeq, layer := 0, top := 0, refs := [] }]
      else codingOrder x.anchor (f.encSeq :: ((r.take x.bframes).takeWhile fun g => !g.force && !x.sceneCut g).map Frame.encSeq)

/-- The frame that a session grants next. -/
def State.nextFrame (s : State) (i : Nat) : Option Frame :=
  if (s.session i).isEnc then
    match s.codingPlan i with
    | e :: _ => (s.waitingOf i).find? fun f => f.encSeq == e.seq
    | [] => none
  else (s.waitingOf i).head?

/-- The entry of the coding order under which a frame is granted. -/
def State.planFor (s : State) (f : Frame) : PlanFrame :=
  ((s.codingPlan f.sess).find? fun e => e.seq == f.encSeq).getD { seq := f.encSeq, layer := 0, top := 0, refs := [] }

/-- The frame's bitstream would predict from a picture that has not crossed (R202): of an encode session one that its pyramid
names, or, while no picture is visible, the frame before it; of a decode session the picture before it, unless it is intra. -/
def State.predictsUncrossed (s : State) (f : Frame) : Bool :=
  let x := s.session f.sess
  if f.decode then !f.intra && (s.framesOf f.sess).any fun g => g.isGranted && decide (g.id < f.id)
  else s.intraCause f == 0 &&
    (((s.framesOf f.sess).any fun g => g.id != f.id && (s.planFor f).refs.contains g.encSeq) ||
      ((x.vis.get 0 []).isEmpty && (s.framesOf f.sess).any Frame.isGranted))

/-- Rate control takes the Interactive inputs (Table 08-5): in that mode, after a discarded analysis (0x0401),
or with the session's Mezzanine withdrawn. -/
def State.interactiveInputs (s : State) (x : Session) (f : Frame) : Bool :=
  x.latency == 0 || f.noAnalysis || f.cost.isNone || (match x.vb with | some n => s.span.mzOut.contains n | none => false)

/-- A fraction moved into [1/4, 4]. -/
def quarterToFour (num den : Nat) : Nat × Nat :=
  if 4 * num < den then (1, 4) else if 4 * den < num then (4, 1) else (num, den)

/-- X of Table 08-5. Where every cost of the mean is 0 the spec gives no quotient: the free word stands for it. -/
def Session.xFactor (x : Session) (f : Frame) (interactive : Bool) (free : Word) : Nat × Nat :=
  let cs :=
    if interactive then (((x.costs.filter fun c => c.1 < f.encSeq)).take 8).map fun c => c.2.1
    else
      let n := if x.latency = 1 then 4 else x.lookahead
      (match f.cost with | some (cf, _) => cf | none => 0) ::
        ((x.costs.filter fun c => f.encSeq < c.1 && c.1 ≤ f.encSeq + n).map fun c => c.2.1)
  match cs with
  | [] => (1, 1)
  | c :: _ => if sumL cs = 0 then quarterToFour free.toNat (2 ^ 28) else quarterToFour (c * cs.length) (sumL cs)

/-- A frame's rate fields as they take effect at its start (R190): the sessions's steps after the frame has started. -/
def Session.startRates (x : Session) (f : Frame) : Tbl StepMem :=
  (x.steps.zipIdx).foldl (fun t (d, k) =>
    let r := { f.rate x k d with dispW := d.dispW, dispH := d.dispH }
    t.put k ((x.mem k).started r (x.frameBits r.target))) x.stepMem

/-- Cost of picture row `r` of a step, from the row costs of step 0 (Table 08-5). -/
def rowCost (costs : List Nat) (rows r : Nat) : Nat :=
  sumL ((costs.zipIdx).map fun (c, j) => if j * rows / costs.length = r then c else 0)

/-- W[i] of a step (Table 08-5). -/
def stepWeights (interactive intra : Bool) (m : StepMem) (costs : List Nat) (d : StepDesc)
    (rows : List (List RowShare)) : List Nat :=
  if interactive then
    if m.rowBitsOk && !intra && m.rowBits.length == rows.length then
      (m.rowBits.zip rows).map fun (b, r) => max b (8 * sumL (r.map (·.units)))
    else rows.map fun r => sumL (r.map (·.samples))
  else rows.map fun r =>
    max (sumL (r.map fun s => rowCost costs d.rows s.row * s.units) / max 1 d.cols) (8 * sumL (r.map (·.units)))

/-- The newest pictures of a visible set by number: a frame's reference list (R202). -/
def newest (n : Nat) (xs : List Slot) : List Slot :=
  let rec insert (y : Slot) : List Slot → List Slot
    | [] => [y]
    | z :: r => if y.num ≥ z.num then y :: z :: r else z :: insert y r
  (xs.foldr insert []).take n

/-- The reference list of an inter frame (R202): in a pyramid the visible pictures that its pattern names, in that order;
otherwise, and where none of those is left, the newest. -/
def referenceList (n : Nat) (e : PlanFrame) (xs : List Slot) : List Slot :=
  match e.refs.filterMap fun q => xs.find? fun z => z.encSeq == q with
  | [] => newest n xs
  | l => l

/-- The lowest slot of a step that is neither visible, a shadow, nor in a granted frame's list (R200, R204). -/
def State.freeSlot (s : State) (i k n : Nat) : Nat :=
  let x := s.session i
  let used := (x.vis.get k []).map (·.slot) ++ ((x.shown s.cyc).vis.get k []).map (·.slot) ++ (s.framesOf i).flatMap fun f =>
    if f.isGranted then (match f.shadow[k]? with | some z => [z] | none => []) ++ (f.refs.getD k []).map (·.slot) else []
  ((List.range n).find? fun z => !used.contains z).getD n

/-- The bytes of a unit in device memory as the Viaduct stages them, encrypted where they are protected (R224); those of a host
address arrive later. -/
def State.sourceBytes (s : State) (f : Frame) : List Byte :=
  if f.pitch = 0 then s.mem.readN (s.refAddr f.input f.inputOff) f.length else []

/-- The Viaduct begins to read a unit at a host address (R219, R224). -/
def State.fetchSource (s : State) (f : Frame) : State :=
  if f.pitch = 0 then s else s.emitRead (s.session f.sess).owner (pair64 f.inputOff f.input) f.length

/-- The frame as its grant makes it: number, intra or inter, lists, shadows, start of every step (R184, R202). -/
def State.grantedFrame (s : State) (f : Frame) (free : Word) (slotEnd : Option Nat) : Frame :=
  let x := (s.session f.sess).shown s.cyc
  let home := x.home.getD (0, 0)
  if f.decode then
    { f with stage := .granted, group := home, slotEnd, firstTick := s.now, refs := [x.vis.get 0 []], staged := s.sourceBytes f,
             shadow := [s.freeSlot f.sess 0 (x.nSlot x.inflight)] }
  else
    let num := s.nextNumber f.sess
    let cause := s.intraCause f
    let intra := cause != 0
    let e := s.planFor f
    let layer := if intra then 0 else e.layer
    let inter := s.interactiveInputs x f
    let so : StartOf :=
      { mode := x.rcMode, u := x.qpUnit, qpInit := 0, intra, layer, first := !x.crossedFull, x := x.xFactor f inter free }
    let run := (x.steps.zipIdx).map fun (d, k) =>
      let r := { f.rate x k d with dispW := d.dispW, dispH := d.dispH }
      let rows := decisionRows x.codec d (stepGang x.codec d x.gangSize)
      startStep { so with qpInit := (x.enabledSteps[k]?.getD d).qpInit } r (x.frameBits r.target) (x.frameBits r.peak) (x.mem k) rows
        (stepWeights inter intra (x.mem k) f.rowCosts d rows)
    { f with stage := .granted, group := home, slotEnd, num, intra, intraCause := cause, layer,
             sceneCut := x.sceneCut f,
             top := if intra then 0 else e.top, tookNext := intra && x.nextIntra,
             refs := (List.range x.steps.length).map fun k => if intra then [] else referenceList x.searchRefs e (x.vis.get k []),
             shadow := (List.range x.steps.length).map fun k => s.freeSlot f.sess k (x.nSlot x.inflight),
             run, members := List.replicate x.gangSize ⟨0, 0, RowStart.fresh⟩, piers := [], keptRows := [],
             firstTick := if f.condRows = 0 then 0 else s.now }

/-- A frame is granted its session's home group (R115, R184): virtual time becomes its finish, the running pyramid moves on,
and the flag that forced an intra frame is spent. -/
def State.grant (s : State) (f : Frame) (slotEnd : Option Nat) : State :=
  let (w, s0) := s.takeFree
  let g := s.grantedFrame f w slotEnd
  let key := groupKey f.kind g.group.1 g.group.2
  let s1 := (s0.setFrame g).setGroup key { s0.group key with vtime := f.finish, holder := some f.id }
  let s2 := { s1 with span := { s1.span with
    claims := s1.span.claims.filter fun c => c.frame != f.id,
    served := match slotEnd with | some e => s1.span.served ++ [(f.sess, e)] | none => s1.span.served } }
  if f.decode then s2.fetchSource g
  else
    let x := s2.session f.sess
    let plan := if x.bframes = 0 then [] else (s.codingPlan f.sess).filter fun e => e.seq != f.encSeq
    s2.setSession f.sess { x with
      stepMem := x.startRates f, nextIntra := x.nextIntra && !g.tookNext, plan, anchor := if g.layer = 0 then some f.encSeq else x.anchor }

end Sys2Proof.Machine
end

