-- ==== Sys2Proof/Machine/Scheduler.lean ====
section
/-! DEFINITION. The span scheduler: entry of a frame (R115, R116), eligibility (R98, R202), slots and rounds
(R111–R114), the decision on a group (R115, R118) and the DROP policy (R107). -/

namespace Sys2Proof.Machine

-- Entry --------------------------------------------------------------------------------------------------------

/-- C of a session at the CCLK step in force (R101). -/
def State.cNow (s : State) (x : Session) : Nat := x.c s.clk.cclk

/-- The DROP test of R107 on a frame at this tick. -/
def State.mustDrop (s : State) (f : Frame) : Bool :=
  let x := s.session f.sess
  x.drop && f.deadline != 0 && decide (f.deadline < s.now + s.cNow x + x.tail)

/-- A frame enters its group's scheduler (R115): its finish is computed, an URGENT frame and the session's waiting
frames before it become URGENT-placed (R116), and a DROP frame that cannot make its deadline is dropped. -/
def State.enterScheduler (s : State) (f : Frame) : State :=
  let x := s.session f.sess
  let home := x.home.getD (0, 0)
  let start := max (s.group (groupKey f.kind home.1 home.2)).vtime x.lastFinish
  let finish := start + ceilDiv (s.cNow x * 256) (max 1 x.weight)
  let g := { f with start, finish, starve := 0, entered := s.now, placed := f.urgent }
  let s1 := s.setSession f.sess { x with lastFinish := finish }
  let fs := if f.urgent then s1.span.frames.map fun h =>
      if h.sess == f.sess && h.stage == .waiting then { h with placed := true } else h
    else s1.span.frames
  let s2 := s1.setFrames (fs ++ [g])
  if s2.mustDrop g then s2.endEmpty g 0x22 else s2

-- Eligibility --------------------------------------------------------------------------------------------------

/-- The oldest waiting frame of a session. -/
def State.oldestWaiting (s : State) (i : Nat) : Option Frame := (s.framesOf i).find? fun f => f.stage == .waiting && f.holdsPicture

/-- Frames of a session granted and not crossed. -/
def State.grantedCount (s : State) (i : Nat) : Nat := ((s.framesOf i).filter Frame.isGranted).length

/-- The frame can be granted at a decision: the one its session grants next, within INFLIGHT, not predicting from a picture
that has not crossed, and not masked by a reset of its function (R115, R117, R202). -/
def State.eligible (s : State) (f : Frame) : Bool :=
  let x := s.session f.sess
  f.stage == .waiting && f.burst.isNone && (match s.nextFrame f.sess with | some g => g.id == f.id | none => false) &&
    decide (s.grantedCount f.sess < max 1 x.inflight) && !s.predictsUncrossed f && s.reachable x.owner

/-- Frames that wait on a home group. -/
def State.waitingOn (s : State) (k : SpanKind) (lg i : Nat) : List Frame :=
  s.span.frames.filter fun f => f.stage == .waiting && f.kind == k && f.burst.isNone && f.holdsPicture && (s.session f.sess).home == some (lg, i)

-- Slots --------------------------------------------------------------------------------------------------------

/-- Fields of a slot (Table 05-5). -/
def slotValid (w : List Word) : Bool := bit (wd w 0) 31
def slotKind (w : List Word) : SpanKind := if bit (wd w 0) 30 then .dec else .enc
def slotLog (w : List Word) : Nat := fld (wd w 0) 28 2
def slotGroup (w : List Word) : Nat := fld (wd w 0) 24 4
def slotSess (w : List Word) : Nat := fld (wd w 0) 0 9
def slotOff (w : List Word) : Nat := fld (wd w 1) 0 22
def slotLen (w : List Word) : Nat := fld (wd w 2) 0 22

/-- A slot of a bank. -/
def State.slot (s : State) (bank n : Nat) : List Word := s.span.slots.get (bank * 64 + n) (zeros 3)

/-- SLOT_CTRL.ACTIVE_BANK. -/
def State.activeBank (s : State) : Nat := s.regF Reg.slotCtrl 29 1

/-- The session of a slot is enabled, of its kind and homed on its group (R111, R114). -/
def State.slotHome (s : State) (w : List Word) : Bool :=
  let x := s.session (slotSess w)
  x.admitted && x.spanKind == slotKind w && slotLog w != 3 && x.home == some (slotLog w, slotGroup w)

/-- TICKS in force from a register value: smaller values act as 100,000 (Table 05-8). -/
def roundLen (v : Nat) : Nat := max 100000 v

/-- Two slots overlap: windows that meet on a shared span. -/
def slotsClash (a b : List Word) : Bool :=
  slotKind a == slotKind b && overlap (slotLog a) (slotGroup a) (slotLog b) (slotGroup b) &&
    decide (slotOff a < slotOff b + slotLen b) && decide (slotOff b < slotOff a + slotLen a)

/-- The reason a slot's words are refused in a bank (R114): bounds and LENGTH, session, overlap. A slot that is
not VALID has nothing to check. Other slots are judged by the words they hold, an accepted rewrite that has not taken
effect not yet among them (log 69). -/
def State.slotReason (s : State) (bank n : Nat) (w : List Word) : Option Nat :=
  if !slotValid w then none
  else firstReason
    [(decide (slotOff w + slotLen w ≤ roundLen s.span.ticks) && decide (s.cNow (s.session (slotSess w)) ≤ slotLen w), 0x0506),
     (s.slotHome w, 0x0508),
     ((List.range 64).all fun m => m == n || !slotValid (s.slot bank m) || !slotsClash w (s.slot bank m), 0x0507)]

/-- SLOT_CTRL.FAIL and REASON (Table 05-7). -/
def State.slotFail (s : State) (r : Nat) : State := (s.raiseB Reg.slotCtrl 28).setRegF Reg.slotCtrl 0 16 r

/-- Tick at which a slot's window opens this round. -/
def State.slotStart (s : State) (w : List Word) : Nat := s.span.lastBoundary + slotOff w

/-- The slot's window is open now. -/
def State.slotOpen (s : State) (w : List Word) : Bool :=
  slotValid w && decide (s.slotStart w ≤ s.now) && decide (s.now < s.slotStart w + slotLen w)

/-- The frame that a slot claims its group for (R113): its session's oldest waiting frame was in the scheduler by the
window's start tick, and the slot has granted it none this round; the frame is the one the session grants next. -/
def State.slotClaim (s : State) (w : List Word) : Option Frame :=
  if !s.slotHome w || s.span.served.contains (slotSess w, s.slotStart w + slotLen w) then none
  else match s.oldestWaiting (slotSess w), s.nextFrame (slotSess w) with
    | some o, some f => if o.entered ≤ s.slotStart w && s.eligible f then some f else none
    | _, _ => none

/-- A slot of the active bank is in use: open, claimed, or granted past its window (R114). -/
def State.slotInUse (s : State) (n : Nat) : Bool :=
  let w := s.slot s.activeBank n
  s.slotOpen w || s.span.claims.any (fun c => c.slot == n) ||
    s.span.frames.any fun f => f.sess == slotSess w && f.slotEnd == some (s.slotStart w + slotLen w)

/-- A rewrite `w` of a slot of the active bank waits for its next time (R114): its window is open, or it is claimed or granted and
the new window has begun. A claim keeps the words it was made under. -/
def State.slotWaits (s : State) (n : Nat) (w : List Word) : Bool :=
  s.slotInUse n && (s.slotOpen (s.slot s.activeBank n) || s.slotOpen w)

/-- SLOT_CTRL.WRITE: SLOT_DATA goes to the selected slot after its checks, in place of any rewrite that still waits (R114). -/
def State.slotCommit (s : State) : State :=
  let sel := s.reg Reg.slotSel
  let bank := fld sel 6 1
  let n := fld sel 0 6
  let w := [s.reg (Reg.slotData 0), s.reg (Reg.slotData 1), s.reg (Reg.slotData 2)]
  match s.slotReason bank n w with
  | some r => s.slotFail r
  | none =>
    if bank = s.activeBank && s.slotWaits n w then
      { s with span := { s.span with deferred := s.span.deferred.put (bank * 64 + n) w } }
    else { s with span := { s.span with slots := s.span.slots.put (bank * 64 + n) w, deferred := s.span.deferred.del (bank * 64 + n) } }

/-- A write of SLOT_CTRL (Table 05-7) as R440 judges it: FAIL clears for every writer; WRITE and SWAP act for a
writer whose port holds SEM[0]. Writing 0 to SWAP leaves a request standing (log 33). -/
def State.slotCtrlWrite (s : State) (a : Agent) (v : Word) : State :=
  let s1 := if bit v 28 && !bit (s.freshBits Reg.slotCtrl) 28 then s.setRegB Reg.slotCtrl 28 false else s
  if s.holds0 a then
    let s2 := if bit v 30 then s1.slotCommit else s1
    if bit v 31 then
      { (s2.setRegB Reg.slotCtrl 31 true) with span := { s2.span with swapAt := some s.now } }
    else s2
  else if bit v 30 || bit v 31 != s.regB Reg.slotCtrl 31 then s1.protoEventA a Reg.slotCtrl
  else s1

/-- A write of SLOT_SEL loads SLOT_DATA from the slot it selects (Table 05-6). -/
def State.slotSelect (s : State) (v : Word) : State :=
  let sel := v &&& 0x7F
  let w := s.slot (fld sel 6 1) (fld sel 0 6)
  (((s.setReg Reg.slotSel sel).setReg (Reg.slotData 0) (wd w 0)).setReg (Reg.slotData 1) (wd w 1)).setReg
    (Reg.slotData 2) (wd w 2)

/-- SLOT_WINDOW_OPEN (R113): the slot's claim is decided at its start tick, and stands until its frame is granted
even if the group is busy. -/
def execSlotWindowOpen (slot : Fin 64) (s : State) : Res :=
  let w := s.slot s.activeBank slot.val
  let stop := s.slotStart w + slotLen w
  if s.inGf || !s.slotOpen w || s.span.claims.any (fun c => c.slot == slot.val && c.words == w && c.stop == stop) then .next s
  else match s.slotClaim w with
    | some f =>
      let c : SlotClaim := { slot := slot.val, frame := f.id, words := w, stop }
      .next { s with span := { s.span with claims := s.span.claims ++ [c] } }
    | none => .next s

/-- The first boundary of the grid BASE + k × TICKS after tick `l` (R112). -/
def boundaryAfter (base ticks l : Nat) : Nat :=
  let t := roundLen ticks
  let b := base % t
  if l < b then b else b + ((l - b) / t + 1) * t

/-- The next boundary of the grid in force; a new grid's first one ends it (R112). -/
def State.nextBoundary (s : State) : Nat :=
  let b := boundaryAfter s.span.base s.span.ticks s.span.lastBoundary
  match s.span.next with
  | some (_, _, turn) => min b turn
  | none => b

/-- A write to ROUND_TICKS or ROUND_BASE makes a new grid that takes effect at its first boundary after the next boundary of
the grid in force (R112). -/
def State.newGrid (s : State) : State :=
  let base := pair64 (s.reg Reg.roundBaseHi) (s.reg Reg.roundBaseLo)
  let ticks := s.regF Reg.roundTicks 0 22
  let old := boundaryAfter s.span.base s.span.ticks s.span.lastBoundary
  { s with span := { s.span with next := some (base, ticks, boundaryAfter base ticks old) } }

/-- A pending SWAP at a boundary after the tick of its write: the banks are exchanged if every valid slot of the
shadow bank passes its checks again (R114). -/
def State.applySwap (s : State) (boundary : Nat) : State :=
  match s.span.swapAt with
  | none => s
  | some t =>
    if boundary ≤ t then s
    else
      let bank := 1 - s.activeBank
      let s1 := (s.setRegB Reg.slotCtrl 31 false)
      let s2 := { s1 with span := { s1.span with swapAt := none } }
      match (List.range 64).findSome? fun n => s.slotReason bank n (s.slot bank n) with
      | some r => s2.slotFail r
      | none => s2.setRegF Reg.slotCtrl 29 1 bank

/-- ROUND_BOUNDARY (R112, R114): rewritten slots take effect, a new grid takes over at its own first boundary, and a pending SWAP
applies or is refused under the grid that now holds. Before its tick nothing happens. -/
def execRoundBoundary (s : State) : Res :=
  let b := s.nextBoundary
  if s.now < b then .next s
  else
    let s1 := { s with span := { s.span with
      slots := s.span.deferred.foldl (fun t (e : Nat × List Word) => t.put e.1 e.2) s.span.slots, deferred := [], lastBoundary := b,
      served := s.span.served.filter fun e => decide (b < e.2) } }
    let s2 := match s1.span.next with
      | some (base, ticks, turn) => if b = turn then { s1 with span := { s1.span with base, ticks, next := none } } else s1
      | none => s1
    .next ((s2.applySwap b).bump Reg.roundCount 0 32)

-- Decisions ----------------------------------------------------------------------------------------------------

/-- The slot's words name this group. -/
def slotOn (w : List Word) (k : SpanKind) (lg i : Nat) : Bool :=
  slotValid w && slotKind w == k && slotLog w == lg && slotGroup w == i

/-- A standing claim holds while its slot is honoured: its session is enabled and homed on the slot's group (R111, R113). -/
def State.claimHolds (s : State) (c : SlotClaim) : Option Frame :=
  match s.frame? c.frame with
  | some f => if f.stage == .waiting && s.slotHome c.words then some f else none
  | none => none

/-- The slot claim that holds at a decision on a group, with the end of its window (R113): a standing one, or one that an
open window makes now. -/
def State.claimOn (s : State) (k : SpanKind) (lg i : Nat) : Option (Frame × Nat) :=
  match s.span.claims.findSome? fun c =>
      if slotOn c.words k lg i then (s.claimHolds c).map fun f => (f, c.stop) else none with
  | some c => some c
  | none => (List.range 64).findSome? fun n =>
      let w := s.slot s.activeBank n
      if slotOn w k lg i && s.slotOpen w then (s.slotClaim w).map fun f => (f, s.slotStart w + slotLen w) else none

/-- SCHED_CFG.STARVE_LIMIT; 0 acts as 1. -/
def State.schedLimit (s : State) : Nat := max 1 (s.regF Reg.schedCfg 0 8)

/-- The frame fetched first of a list. -/
def firstFetched (fs : List Frame) : Option Frame :=
  fs.foldl (fun acc f => match acc with | some g => if f.id < g.id then some f else acc | none => some f) none

/-- The frame that weighted fair queueing grants: highest PRIO, smallest finish, lowest session (R115). -/
def State.fairest (s : State) (fs : List Frame) : Option Frame :=
  fs.foldl (fun acc f =>
    match acc with
    | none => some f
    | some g =>
      let pf := (s.session f.sess).prio
      let pg := (s.session g.sess).prio
      if pf > pg || (pf == pg && (f.finish < g.finish || (f.finish == g.finish && f.sess < g.sess))) then some f
      else acc) none

/-- The frame a decision grants and the end of the window whose slot claimed it (R115). -/
def State.pickGrant (s : State) (k : SpanKind) (lg i : Nat) (es : List Frame) : Option (Frame × Option Nat) :=
  match s.claimOn k lg i with
  | some (f, stop) => some (f, some stop)
  | none =>
    let starved := es.filter fun f => decide (s.schedLimit ≤ f.starve)
    let placed := es.filter fun f => f.placed
    let pick := if !starved.isEmpty then firstFetched starved
                else if !placed.isEmpty then firstFetched placed else s.fairest es
    pick.map fun f => (f, none)

/-- Every other eligible frame loses a decision; the first to reach STARVE_LIMIT sets STARVED (R115, R118). -/
def State.starveOthers (s : State) (es : List Frame) (id : Nat) : State :=
  es.foldl (fun st f =>
    if f.id = id then st
    else
      let st1 := st.setFrame { f with starve := f.starve + 1 }
      if f.starve + 1 = st.schedLimit then (st1.raiseB Reg.schedCfg 31).raise 961 else st1) s

/-- A frame waits on the group to be replayed, which needs no decision (R375). -/
def State.replayDue (s : State) (k : SpanKind) (lg i : Nat) : Bool :=
  s.span.frames.any fun f =>
    (f.stage == .replayWait || f.stage == .replayBehind) && f.kind == k && overlap lg i f.group.1 f.group.2

/-- A span of the group is power-gated: its first grant waits for the wake (R400). -/
def State.groupGated (s : State) (k : SpanKind) (lg i : Nat) : Bool :=
  (groupIdx lg i).any fun l => match s.physOf k l with
    | some p => s.regB (Reg.gated (kindIx k)) p
    | none => false

/-- The group can decide: it serves, it holds no grant, and no grant of an overlapping group runs (R115, R117). -/
def State.canDecide (s : State) (k : SpanKind) (lg i : Nat) : Bool :=
  !s.inGf && decide (lg ≤ 2) && decide (i < 16 / 2 ^ lg) && s.groupServes k lg i &&
    (s.group (groupKey k lg i)).holder.isNone && !s.replayDue k lg i && !s.groupGated k lg i &&
    !s.span.groups.any fun (e : Nat × Group) =>
      e.2.holder.isSome && e.1 / 64 == kindIx k && overlap lg i (e.1 / 16 % 4) (e.1 % 16)

/-- A decision on a home group (R115): DROP frames that cannot make their deadline are dropped, then one frame is
granted. The flag says whether a session frame was granted. -/
def State.schedule (s : State) (k : SpanKind) (lg i : Nat) : State × Bool :=
  let s1 := (s.waitingOn k lg i).foldl (fun st f => if st.mustDrop f then st.endEmpty f 0x22 else st) s
  let es := (s1.waitingOn k lg i).filter fun f => s1.eligible f
  match s1.pickGrant k lg i es with
  | some (f, e) => ((s1.starveOthers es f.id).grant f e, true)
  | none => (s1, false)

/-- DEADLINE_DROP (R107): a DROP frame that has not crossed at tick DEADLINE + 1 ends. -/
def execDeadlineDrop (frame : Nat) (s : State) : Res :=
  match s.frame? frame with
  | some f =>
    if !s.inGf && f.holdsPicture && s.tooLate f then .next (s.endEmpty f 0x22)
    else .next s
  | none => .next s

end Sys2Proof.Machine
end

