-- ==== Sys2Proof/Machine/Hints.lean ====
section
/-! DEFINITION. Engine hint buffers (R132–R137): the header, the records and what a rejected one gives, and the hint
aligned to each 8 × 8 block of step 0. -/

namespace Sys2Proof.Machine

/-- GRID_W and GRID_H of a session's input (Table 06-4). -/
def Session.gridW (x : Session) : Nat := ceilDiv x.srcW 8
def Session.gridH (x : Session) : Nat := ceilDiv x.srcH 8

/-- Records of a hint buffer. -/
def Session.gridN (x : Session) : Nat := x.gridW * x.gridH

/-- The header has the grid of R132 and zero reserved words. -/
def State.hintHeaderOk (s : State) (x : Session) (h off : Word) : Bool :=
  let w := s.loadWs (s.refAddr h off) 16
  wd w 0 == (at_ 16 x.gridW ||| at_ 0 x.gridH) && fld (wd w 1) 0 31 == 0 && allZero (w.drop 2)

/-- SCENE_CUT of a hint header. -/
def State.hintCut (s : State) (h off : Word) : Bool := bit (s.loadW (s.refAddr h off + 4)) 31

/-- The record at address `a` is accepted under R133. -/
def State.recordOk (s : State) (x : Session) (a : Nat) : Bool :=
  let mv := s.loadW a
  let fl := s.loadW (a + 4)
  let mag (lo : Nat) : Nat := ((mv.extractLsb' lo 16).toInt).natAbs
  fld fl 16 10 == 0 && !(bit fl 26 && (decide (mag 0 > 4 * x.srcW) || decide (mag 16 > 4 * x.srcH)))

/-- What the record at address `a` says (Table 06-5); a rejected one gives nothing (R133). -/
def State.hintRecord (s : State) (x : Session) (a : Nat) : Hint :=
  let mv := s.loadW a
  let fl := s.loadW (a + 4)
  if s.recordOk x a then
    { mv := if bit fl 26 then some ((mv.extractLsb' 0 16).toInt, (mv.extractLsb' 16 16).toInt) else none,
      overlay := bit fl 27, importance := fld fl 28 4, depth := fld fl 0 16 }
  else { mv := none, overlay := false, importance := 0, depth := 0xFFFF }

/-- Address of record (`gx`, `gy`) of a hint buffer: after the header, in raster order (R132). -/
def Session.recordAddr (x : Session) (base gx gy : Nat) : Nat := base + 64 + 8 * (gy * x.gridW + gx)

/-- Accepted records of a hint buffer. -/
def State.hintsAccepted (s : State) (x : Session) (h off : Word) : Nat :=
  ((List.range x.gridN).filter fun i => s.recordOk x (s.refAddr h off + 64 + 8 * i)).length

-- Alignment ------------------------------------------------------------------------------------------------------------

/-- A step 0 point along one axis in rotated-crop samples, as a numerator over the display size (R136's map). -/
def mapAxis (disp rot u : Nat) : Nat := min u disp * rot

/-- An interval [`a`, `b`) of rotated-crop samples along an axis counted from the other end of `n`, all in units of one
sample over `disp`. -/
def turnSpan (flip : Bool) (n disp a b : Nat) : Nat × Nat := if flip then (n * disp - b, n * disp - a) else (a, b)

/-- The source interval of a step 0 interval [`u0`, `u1`) × [`v0`, `v1`), across and down, in units of one sample over the
display width and height that run along each, with those two sizes (R136's map over an area). -/
def Session.mapArea (x : Session) (d : StepDesc) (u0 u1 v0 v1 : Nat) : (Nat × Nat × Nat) × (Nat × Nat × Nat) :=
  let px := (mapAxis d.dispW x.rotW u0, mapAxis d.dispW x.rotW u1)
  let py := (mapAxis d.dispH x.rotH v0, mapAxis d.dispH x.rotH v1)
  let w := x.cropW
  let h := x.cropH
  let (across, da, down, dd) :=
    match x.rotate with
    | 0 => (px, d.dispW, py, d.dispH)
    | 1 => (py, d.dispH, turnSpan true h d.dispW px.1 px.2, d.dispW)
    | 2 => (turnSpan true w d.dispW px.1 px.2, d.dispW, turnSpan true h d.dispH py.1 py.2, d.dispH)
    | _ => (turnSpan true w d.dispH py.1 py.2, d.dispH, px, d.dispW)
  let across' := turnSpan x.mirror w da across.1 across.2
  ((x.cropX * da + across'.1, x.cropX * da + across'.2, da), (x.cropY * dd + down.1, x.cropY * dd + down.2, dd))

/-- The input block along an axis that holds a point, and the last one of the crop where the point is its far edge. -/
def blockAt (a disp first size : Nat) : Nat := min (a / disp) (first + size - 1) / 8

/-- Input blocks along an axis that an interval touches. -/
def blocksOn (a b disp : Nat) : List Nat :=
  let lo := a / (8 * disp)
  (List.range (ceilDiv b (8 * disp) - lo)).map (lo + ·)

/-- The vector turned with the picture and scaled to step 0 (R136): mirrored, rotated, rounded half away from zero and kept
in 16 bits. -/
def Session.turnVector (x : Session) (d : StepDesc) (v : Int × Int) : Int × Int :=
  let dx := if x.mirror then -v.1 else v.1
  let dy := v.2
  let (rx, ry) :=
    match x.rotate with
    | 0 => (dx, dy)
    | 1 => (-dy, dx)
    | 2 => (-dx, -dy)
    | _ => (dy, -dx)
  let scale (a : Int) (disp rot : Nat) : Int := clampI (-32768) 32767 (roundAway (a * disp) rot)
  (scale rx d.dispW x.rotW, scale ry d.dispH x.rotH)

/-- The aligned hint of step 0 block (`bx`, `by`) (R136). -/
def State.alignHint (s : State) (x : Session) (d : StepDesc) (base bx by_ : Nat) : Hint :=
  let at_ (gx gy : Nat) : Hint := s.hintRecord x (x.recordAddr base gx gy)
  let ((cx, _, da), (cy, _, dd)) := x.mapArea d (8 * bx + 4) (8 * bx + 4) (8 * by_ + 4) (8 * by_ + 4)
  let c := at_ (blockAt cx da x.cropX x.cropW) (blockAt cy dd x.cropY x.cropH)
  let ((x0, x1, _), (y0, y1, _)) := x.mapArea d (8 * bx) (8 * bx + 8) (8 * by_) (8 * by_ + 8)
  let fs := (blocksOn y0 y1 dd).flatMap fun gy => (blocksOn x0 x1 da).map fun gx => at_ gx gy
  { mv := c.mv.map (x.turnVector d), overlay := fs.all Hint.overlay,
    importance := (fs.map Hint.importance).foldl max 0, depth := (fs.map Hint.depth).foldl min 0xFFFF }

/-- Columns and rows of 8 × 8 blocks of a step. -/
def StepDesc.blockCols (d : StepDesc) : Nat := d.codedW / 8
def StepDesc.blockRows (d : StepDesc) : Nat := d.codedH / 8

/-- The aligned hints of step 0, in raster order. -/
def State.alignHints (s : State) (x : Session) (h off : Word) : List Hint :=
  match x.steps with
  | d :: _ =>
    (List.range d.blockRows).flatMap fun by_ => (List.range d.blockCols).map fun bx => s.alignHint x d (s.refAddr h off) bx by_
  | [] => []

/-- The Vestibule reads a frame's hints (Table 06-1 stage 1, R133, R135): the records are judged and aligned. -/
def State.readHints (s : State) (x : Session) (f : Frame) : Frame :=
  match f.hint with
  | none => f
  | some (h, off, n) =>
    let ok := s.hintsAccepted x h off
    { f with hintsOk := ok, hintsBad := n - ok, aligned := s.alignHints x h off }

end Sys2Proof.Machine
end

