-- ==== Sys2Proof/Machine/Vestibule.lean ====
section
/-! DEFINITION. The Vestibule and the packets that feed it: stairs (R138–R141), hint buffers (R132–R137), the
input checks of ENC_FRAME (R126), conditioning rows (R120, R121) and the Mezzanine's costs (R192). -/

namespace Sys2Proof.Machine

-- Stairs -------------------------------------------------------------------------------------------------------

/-- A step descriptor from its words (Table 06-6). -/
def stepOfWords (w : List Word) : StepDesc :=
  { dispW := fld (wd w 0) 16 16, dispH := fld (wd w 0) 0 16, target := (wd w 1).toNat, peak := (wd w 2).toNat,
    bufBits := (wd w 3).toNat, qpMin := fld (wd w 4) 24 8, qpMax := fld (wd w 4) 16 8, qpInit := fld (wd w 4) 8 8 }

/-- The descriptors' words that STAIR_SET names. -/
def State.stairWords (s : State) (p : Packet) : List (List Word) :=
  (List.range (p.p 2).toNat).map fun k => s.loadWs (s.refAddr (p.p 0) (p.p 1) + 32 * k) 8

/-- Reserved words are 0, and entry 0's rate words (R138). -/
def stairReservedOk (ws : List (List Word)) : Bool :=
  ws.all (fun w => fld (wd w 4) 0 8 == 0 && allZero (w.drop 5)) &&
    match ws with
    | w :: _ => allZero ((w.drop 1).take 4)
    | [] => true

/-- R140: on an enabled session the geometry stays, then rule 7 of R139 judges the rate fields. -/
def State.stairLive (s : State) (p : Packet) : Option Refuse :=
  let x := s.session p.sessField
  let ds := (s.stairWords p).map stepOfWords
  if !x.en then none
  else if (ds.map fun d => (d.dispW, d.dispH)) != x.steps.map (fun d => (d.dispW, d.dispH)) then some ⟨0x17, 0x0707, 0⟩
  else (Session.steps { x with stair := ds }).findSome? x.rateReason |>.map fun r => ⟨0x10, r, 0⟩

/-- The checks of STAIR_SET (R138, R140, R442). -/
def State.stairChecks (s : State) (p : Packet) : List (Option Refuse) :=
  [need (!(s.session p.sessField).isDec) (badParam 0x0204 0xFF),
   need (within 1 6 (p.p 2).toNat) (badParam 0x070A 2),
   s.checkRef p.fid (p.p 0) (p.p 1) ((p.p 2).toNat * 32) 0,
   need (stairReservedOk (s.stairWords p)) (badParam 0x0105 0), s.stairLive p]

/-- STAIR_SET (R138, R140). -/
def execStairSet (c : Ctx) (s : State) : Res :=
  .next (s.atKeystone c 0x22 s.stairChecks fun p =>
    let i := p.sessField
    let s1 := s.setSession i { s.session i with stair := (s.stairWords p).map stepOfWords }
    s1.done p [loW (2 ^ (p.p 2).toNat - 1), 0, 0, 0])

-- Hint buffers -------------------------------------------------------------------------------------------------

/-- The checks of a hint buffer in R134's order; `v` is the word that V1 names, `count` HINT_ATTACH's P2. A header
that its buffer does not hold is a range past the end (log 35). -/
def State.hintRefusal (s : State) (x : Session) (fid : Nat) (h off : Word) (v : Nat) (count : Option Word) : Option Refuse :=
  firstRefusal
    [s.checkHandle fid h v, need (off.toNat % 64 == 0) (badParam 0x0305 v),
     need (rangeInside h off.toNat 64) (badParam 0x0301 v), need (s.hintHeaderOk x h off) (badParam 0x0108 v),
     (match count with
      | some n => need (n.toNat == x.gridN) (badParam 0x0108 2)
      | none => none),
     need (rangeInside h off.toNat (64 + 8 * x.gridN)) (badParam 0x0301 v)]

/-- The checks of R442 and R97 that frame and flush packets make first: the session is not of the other kind, and it is
enabled. -/
def State.kindChecks (s : State) (p : Packet) (enc : Bool) : List (Option Refuse) :=
  let x := s.session p.sessField
  [need (!(if enc then x.isDec else x.isEnc)) (badParam 0x0204 0xFF), need x.en ⟨0x10, 0x0706, 0⟩]

/-- HINT_ATTACH (R134, R135). -/
def execHintAttach (c : Ctx) (s : State) : Res :=
  .next (s.atKeystone c 0x24
    (fun p => s.kindChecks p true ++ [s.hintRefusal (s.session p.sessField) p.fid (p.p 0) (p.p 1) 0 (some (p.p 2))])
    fun p =>
      let x := s.session p.sessField
      let old := match x.hint with
        | some (_, _, n) => n
        | none => 0
      (s.setSession p.sessField { x with hint := some (p.p 0, p.p 1, (p.p 2).toNat) }).done p [p.p 2, loW old, 0, 0])

-- ENC_FRAME ----------------------------------------------------------------------------------------------------

/-- The input picture in R126's order. -/
def State.inputRefusal (s : State) (x : Session) (p : Packet) : Option Refuse :=
  let pitch := (p.p 2).toNat
  firstRefusal
    [s.checkHandle p.fid (p.p 0) 0, need ((p.p 1).toNat % 64 == 0) (badParam 0x0305 1),
     need (pitch % 64 == 0 && decide (formatRowBytes x.inFormat * x.srcW ≤ pitch)) (badParam 0x0107 2),
     need (rangeInside (p.p 0) (p.p 1).toNat (pitch * x.srcH * formatHalves x.inFormat / 2)) (badParam 0x0301 1)]

/-- The checks of ENC_FRAME. -/
def State.encFrameChecks (s : State) (p : Packet) : List (Option Refuse) :=
  let x := s.session p.sessField
  s.kindChecks p true ++
    [s.inputRefusal x p, if p.p 6 = 0 then none else s.hintRefusal x p.fid (p.p 6) (p.p 7) 6 none]

/-- Frames of a Vestibule in entry order. -/
def State.vbFrames (s : State) (n : Nat) : List Frame :=
  s.span.frames.filter fun f => !f.decode && (s.session f.sess).vb == some n

/-- A frame takes a context (R121): its hints are read and judged, an attachment's handle once more (R133, R135).
A frame with hints of its own pins their buffer beside the input's. -/
def State.startCond (s : State) (f : Frame) : State :=
  let x := s.session f.sess
  match f.hint with
  | none => s.setFrame { f with vbCtx := true }
  | some (h, _, n) =>
    if f.bufs.length < 2 && (s.checkHandle x.owner h 0).isSome then
      (s.setFrame { f with vbCtx := true, hint := none, hintsOk := 0, hintsBad := n, aligned := [] }).protoEvent x.owner 0
    else s.setFrame { s.readHints x f with vbCtx := true }

/-- Waiting frames of a Vestibule take free contexts in entry order, 8 at most (R121). -/
def State.fillContexts (s : State) (n : Nat) : State :=
  (s.vbFrames n).foldl (fun st f =>
    if f.vbCtx || f.conditioned || ((st.vbFrames n).filter Frame.vbCtx).length ≥ 8 then st else st.startCond f) s

/-- The share of span `j` of a step of a session; a span beyond the smaller gang of a lower step has none (R153, R172). -/
def Session.shareOf (x : Session) (k j : Nat) : List RowShare :=
  match x.steps[k]? with
  | some d => let g := stepGang x.codec d x.gangSize; if j < g then shareRows x.codec d g j else []
  | none => []

/-- Picture row `row` of step `k` has its conditioned lines: the rows of step 0 that are done determine them (R121). -/
def Session.rowReady (x : Session) (f : Frame) (k row : Nat) : Bool :=
  f.conditioned ||
    match x.steps[k]?, x.steps with
    | some d, d0 :: _ => decide (min d.codedH (64 * (row + 1)) ≤ linesBy d0.codedH d.codedH f.condRows)
    | _, _ => true

/-- A span goes on to its next step: past step 0 once every decision row of it is decided, past a later step at once
(R154). -/
def advanceMember (x : Session) (f : Frame) (j : Nat) (fuel : Nat) (m : Member) : Member :=
  match fuel with
  | 0 => m
  | fuel + 1 =>
    match f.run[m.step]? with
    | none => m
    | some r =>
      if m.row < (x.shareOf m.step j).length then m
      else if m.step = 0 && !r.finished then m
      else advanceMember x f j fuel ⟨m.step + 1, 0, RowStart.fresh⟩

/-- A granted gang waits for the frame's next row (R121): a span stands at a row whose lines are not complete. -/
def State.gangWaits (s : State) (f : Frame) : Bool :=
  let x := s.session f.sess
  f.stage == .granted && f.members.zipIdx.any fun (m0, j) =>
    let m := advanceMember x f j 7 m0
    match (x.shareOf m.step j)[m.row]? with
    | some r => !x.rowReady f m.step r.row
    | none => false

/-- The Vestibule takes its next row (R121): of a frame whose gang waits for it, else of the frame after `last`
in entry order. -/
def State.takeRow (s : State) (n last : Nat) (before : List Frame) : State :=
  let j := (before.findIdx? fun f => f.id == last).map (· + 1) |>.getD 0
  let ring := ((before.drop j ++ before.take j).filterMap fun f => s.frame? f.id).filter Frame.vbCtx
  let next := match (s.vbFrames n).find? fun f => f.vbCtx && s.gangWaits f with
    | some f => f.id + 1
    | none => match ring with
      | f :: _ => f.id + 1
      | [] => 0
  { s with span := { s.span with vbTurn := s.span.vbTurn.put n next } }

/-- The frame whose row a Vestibule works on. -/
def State.vbCurrent (s : State) (n : Nat) : Option Frame :=
  match s.span.vbTurn.get n 0 with
  | 0 => none
  | k + 1 => (s.vbFrames n).find? fun f => f.id == k && f.vbCtx

/-- Contexts are taken, and an idle Vestibule takes a row. -/
def State.feedVb (s : State) (n : Nat) : State :=
  let s1 := s.fillContexts n
  if (s1.vbCurrent n).isSome then s1 else s1.takeRow n 0 ((s1.vbFrames n).filter Frame.vbCtx)

/-- ENC_FRAME (R126, R134–R137): the frame goes to the span scheduler and to its Vestibule. -/
def execEncFrame (c : Ctx) (s : State) : Res :=
  .next (s.atKeystone c 0x20 s.encFrameChecks fun p =>
    let i := p.sessField
    let x := s.session i
    let own := p.p 6 != 0
    let hint := if own then some (p.p 6, p.p 7, x.gridN) else x.hint
    let cut := match hint with
      | some (h, off, _) => (own || (s.checkHandle p.fid h 0).isNone) && s.hintCut h off
      | none => false
    let bufs := handleKey (p.p 0) :: (if own then [handleKey (p.p 6)] else [])
    let f := { Frame.ofPacket p 0 false with
      pts := pair64 (p.p 5) (p.p 4), force := bit (p.p 3) 0, sceneCut := bit (p.p 3) 1 || cut, encSeq := x.encSeq,
      hint, bufs, input := p.p 0, inputOff := p.p 1, pitch := (p.p 2).toNat, rates := x.steps }
    let s1 := (s.leaveCtx c p .frame).pinAll bufs
    let s2 := (s1.setSession i { s1.session i with hint := none, encSeq := x.encSeq + 1 }).enterScheduler f
    match x.vb with
    | some n => s2.feedVb n
    | none => s2)

/-- ENC_FLUSH and, for a decode session, DEC_FLUSH wait for the session's earlier frames (R209, R210). -/
def State.flushKeystone (s : State) (c : Ctx) (opc : Nat) (enc : Bool) : State :=
  s.atKeystone c opc (fun p => s.kindChecks p enc) fun p => (s.leaveCtx c p .draining).settleDrain p.sessField

/-- ENC_FLUSH (R209). -/
def execEncFlush (c : Ctx) (s : State) : Res := .next (s.flushKeystone c 0x21 true)

-- Conditioning and analysis --------------------------------------------------------------------------------------

/-- One more row of a frame is conditioned: the lines of every step that it determines and of the analysis copy join the copy
set (R120–R123), the copy itself the session's when it is whole (R192); after the last row its context is free. The first CTB of a frame granted before starts now. -/
def State.rowConditioned (s : State) (f : Frame) : State :=
  let x := s.session f.sess
  let rows := match x.steps with
    | d :: _ => d.rows
    | [] => 0
  let n := f.condRows + 1
  let g := { s.condition x f n with condRows := n, conditioned := decide (rows ≤ n), vbCtx := decide (n < rows),
                                    firstTick := if n = 1 && f.isGranted then s.now else f.firstTick }
  let s1 := s.setFrame g
  if g.conditioned then
    s1.setSession f.sess { s1.session f.sess with
      analyses := ((s1.session f.sess).analyses.put f.encSeq g.analysis).filter fun e => decide (f.encSeq < e.1 + 64) }
  else s1

/-- CONDITIONING_ROW (R121): the row in progress ends and the next is taken. A gated Vestibule does not work. -/
def execConditioningRow (vb : Fin 4) (s : State) : Res :=
  let n := vb.val
  if s.inGf || s.span.gatedVb.contains n then .next s
  else match s.vbCurrent n with
    | none => .next (s.feedVb n)
    | some f =>
      let before := (s.vbFrames n).filter Frame.vbCtx
      .next (((s.rowConditioned f).takeRow n f.id before).feedVb n)

/-- A cost joins the session's list, newest first, 64 kept (R192). -/
def insertCost (c : Nat × Nat × Nat) : List (Nat × Nat × Nat) → List (Nat × Nat × Nat)
  | [] => [c]
  | d :: r => if d.1 < c.1 then c :: d :: r else if d.1 = c.1 then c :: r else d :: insertCost c r

/-- Columns and rows of 8 × 8 blocks of the analysis copy. -/
def Session.anaCols (x : Session) : Nat := ceilDiv x.anaW 8
def Session.anaRows (x : Session) : Nat := ceilDiv x.anaH 8

/-- Row costs of step 0 from the blocks' intra and inter costs in raster order (R192): the lesser of the two of every block of
the two lines of blocks that lie under a row of 64 lines. -/
def Session.rowCostsOf (x : Session) (costs : List (Nat × Nat)) : List Nat :=
  let n := 2 * x.anaCols
  let rows := match x.steps with | d :: _ => d.rows | [] => 0
  (List.range rows).map fun r => sumL (((costs.drop (n * r)).take n).map fun c => min c.1 c.2)

/-- Costs of the 8 × 8 blocks of a frame's analysis copy, in raster order. -/
def Session.blockCosts (x : Session) (cost : Nat → Nat → Nat) : List Nat :=
  (List.range x.anaRows).flatMap fun j => (List.range x.anaCols).map fun i => cost (8 * i) (8 * j)

/-- The least of a list of costs that begins with `n`. -/
def leastOf (n : Nat) (ns : List Nat) : Nat := ns.foldl min n

/-- Intra costs of a frame's blocks (R192): the least of DC, planar, horizontal and vertical prediction. -/
def Session.intraCosts (x : Session) (f : Frame) : List Nat :=
  x.blockCosts fun u v =>
    let cost (m : Nat) : Nat := Config.hadamard (diffLines f.analysis u v (Config.analysisPrediction m f.analysis u v))
    leastOf (cost 0) [cost 1, cost 2, cost 3]

/-- Analysis copies that a frame's inter costs are taken against (R192): the previous frame's, or with a pyramid those of its
references; none before there is one. -/
def State.analysisRefs (s : State) (f : Frame) : List (List (List Nat)) :=
  let x := s.session f.sess
  let before := (x.analyses.filter fun e => e.1 + 1 == f.encSeq).map (·.2)
  if x.bframes = 0 then before
  else match (s.planFor f).refs.filterMap x.analyses.find with
    | [] => before
    | l => l

/-- Inter costs of a frame's blocks (R192): the least within ±32 × ±16 samples in any of those copies; without one the intra cost
stands alone (log 73). -/
def State.interCosts (s : State) (f : Frame) : List Nat :=
  let x := s.session f.sess
  match s.analysisRefs f with
  | [] => x.intraCosts f
  | refs => x.blockCosts fun u v =>
    match refs.flatMap fun r => (gridOf 1 (-32) 32 (-16) 16).map fun w =>
        Config.hadamard (diffLines f.analysis u v ((List.range 8).map fun j => (List.range 8).map fun i =>
          pix r ((u + i : Nat) + w.1) ((v + j : Nat) + w.2))) with
    | [] => 0
    | c :: cs => leastOf c cs

/-- MEZZANINE_ANALYSIS (R192, R193): the costs of a conditioned frame. `intra` and `inter` are the costs of each 8 × 8 block
of the analysis copy, in raster order; other numbers are no analysis of it (log 73). A withdrawn Mezzanine gives none, and a frame
whose analysis was discarded has none. -/
def execMezzanineAnalysis (frame : Nat) (intra inter : List Nat) (s : State) : Res :=
  match s.frame? frame with
  | none => .next s
  | some f =>
    let x := s.session f.sess
    let out := match x.vb with | some n => s.span.mzOut.contains n || s.span.gatedMz.contains n | none => true
    if s.inGf || f.decode || out || !f.conditioned || f.noAnalysis || f.cost.isSome || intra != x.intraCosts f ||
        inter != s.interCosts f then
      .next s
    else
      let rowCosts := x.rowCostsOf (intra.zip inter)
      let cf := sumL rowCosts
      let intraCost := sumL intra
      let s1 := s.setFrame { f with rowCosts, cost := some (cf, intraCost) }
      .next (s1.setSession f.sess { x with costs := (insertCost (f.encSeq, cf, intraCost) x.costs).take 64 })

end Sys2Proof.Machine
end

