-- ==== Sys2Proof/Machine/Gallery.lean ====
section
/-! DEFINITION. The Gallery's storage units (R194–R196): the lossless compression of a unit, its length map, and the picture
that a full crossing enters into a visible set. -/

namespace Sys2Proof.Machine

-- Lossless compression (R195) ---------------------------------------------------------------------------------------------

/-- The median edge prediction of a sample from its left, upper and upper-left neighbours (R195). -/
def medPredict (l u ul : Int) : Int :=
  if max l u ≤ ul then min l u else if ul ≤ min l u then max l u else l + u - ul

/-- Residuals of a line whose left neighbour so far is `l` and upper-left `ul`; `up` is the line above. Outside the unit a
neighbour reads 0 (log 77). -/
def lineResiduals (l ul : Int) : List Int → List Int → List Int
  | _, [] => []
  | up, v :: r => (v - medPredict l (up.headD 0) ul) :: lineResiduals v (up.headD 0) up.tail r

/-- The line that residuals restore. -/
def restoreLine (l ul : Int) : List Int → List Int → List Int
  | _, [] => []
  | up, d :: r =>
    let v := d + medPredict l (up.headD 0) ul
    v :: restoreLine v (up.headD 0) up.tail r

/-- Residuals of a plane of a unit, line by line; `up` is the line above. -/
def planeResiduals (up : List Int) : List (List Int) → List (List Int)
  | [] => []
  | l :: r => lineResiduals 0 0 up l :: planeResiduals l r

/-- The plane that residuals restore. -/
def restorePlane (up : List Int) : List (List Int) → List (List Int)
  | [] => []
  | d :: r =>
    let l := restoreLine 0 0 up d
    l :: restorePlane l r

-- Units -----------------------------------------------------------------------------------------------------------------

/-- Samples of a component in unit (`c`, `r`), whose side is `w` × `h` samples of it. -/
def unitPlane (ls : List (List Nat)) (w h c r : Nat) : List (List Int) :=
  ((ls.drop (h * r)).take h).map fun l => ((l.drop (w * c)).take w).map Int.ofNat

/-- A residual as a number without a sign, for the Golomb–Rice code: 0, −1, 1, −2, … count up from 0 (PRESUMED, log 77). -/
def unsignedOf (d : Int) : Nat := if 0 ≤ d then 2 * d.toNat else 2 * d.natAbs - 1

/-- Bits of the Golomb–Rice code of a number with parameter `k`: its quotient in unary with a stop bit, then `k` bits. -/
def riceBits (k v : Nat) : Nat := v / 2 ^ k + 1 + k

/-- The 8 × 8 blocks of a plane of residuals, in raster order. -/
def riceBlocks (p : List (List Int)) : List (List Int) :=
  (List.range (ceilDiv p.length 8)).flatMap fun j => (List.range (ceilDiv (p.headD []).length 8)).map fun i =>
    ((p.drop (8 * j)).take 8).flatMap fun l => (l.drop (8 * i)).take 8

/-- Bits of a unit's coded residuals, a parameter for each block (R195). -/
def codedBits (planes : List (List (List Int))) : Nat :=
  sumL ((planes.flatMap riceBlocks).map fun b =>
    Config.riceHeader + sumL (b.map fun d => riceBits (Config.riceParameter b) (unsignedOf d)))

/-- Unit (`c`, `r`) of a picture as it is stored (R195): its coded residuals in the whole stripes they take, at least one, or raw
where that is more than the raw stripes. -/
def storeUnit (depth chroma : Nat) (p : Samples) (c r : Nat) : StoredUnit :=
  let w := if chroma = 2 then 64 else 32
  let h := if chroma = 0 then 32 else 64
  let planes := [unitPlane p.y 64 64 c r, unitPlane p.cb w h c r, unitPlane p.cr w h c r]
  let coded := planes.map (planeResiduals [])
  let k := max 1 (ceilDiv (codedBits coded) 8192)
  if rawStripes depth chroma < k then { stripes := rawStripes depth chroma, raw := true, planes }
  else { stripes := k, raw := false, planes := coded }

/-- The samples of a stored unit's planes, bit for bit (R195). -/
def StoredUnit.restored (u : StoredUnit) : List (List (List Int)) :=
  if u.raw then u.planes else u.planes.map (restorePlane [])

/-- The units of a picture `w` × `h` in raster order (R194). -/
def storeUnits (depth chroma w h : Nat) (p : Samples) : List StoredUnit :=
  (List.range (ceilDiv h 64)).flatMap fun r => (List.range (ceilDiv w 64)).map fun c => storeUnit depth chroma p c r

/-- Plane `n` of a picture from its stored units, row of units by row. -/
def planeOfUnits (cols n : Nat) (us : List StoredUnit) : List (List Nat) :=
  let ps := us.map fun u => u.restored.getD n []
  (List.range (ceilDiv ps.length (max 1 cols))).flatMap fun r =>
    let row := (ps.drop (r * cols)).take cols
    (List.range (row.headD []).length).map fun j => row.flatMap fun p => (p.getD j []).map Int.toNat

/-- The picture that a span reads from a slot, its units decompressed (R197). -/
def Slot.pic (z : Slot) : Samples :=
  { y := planeOfUnits z.cols 0 z.units, cb := planeOfUnits z.cols 1 z.units, cr := planeOfUnits z.cols 2 z.units }

/-- Stripes of the length map of `u` units, padded with zeros (R196). -/
def mapStripes (u : Nat) : Nat := ceilDiv u 2048

/-- The length map of stored units: an entry for each with its stripes, padded with zeros to whole stripes (R196). -/
def lengthMap (us : List StoredUnit) : List Nat :=
  us.map StoredUnit.stripes ++ List.replicate (2048 * mapStripes us.length - us.length) 0

/-- The quarter-scale copy of step 0's luma, `w` × `h` samples (R155, R196). -/
def quarterCopy (w h : Nat) (p : Samples) : List (List Nat) :=
  (List.range (ceilDiv h 4)).map fun j => (List.range (ceilDiv w 4)).map fun i => (Config.quarterSample p.y i j).toNat

/-- A slot with a picture `w` × `h` in it. -/
def Slot.ofPicture (slot num : Nat) (order : Word) (flags encSeq depth chroma w h : Nat) (quarter : Bool) (p : Samples) : Slot :=
  let units := storeUnits depth chroma w h p
  { slot, num, order, flags, encSeq, units, cols := ceilDiv w 64, lengths := lengthMap units,
    quarter := if quarter then quarterCopy w h p else [] }

end Sys2Proof.Machine
end

