-- ==== Sys2Proof/Machine/Motion.lean ====
section
/-! DEFINITION. What the motion search and the quantiser offsets of an encode span are bound to (R155–R162, R164): the coarse
search, the seeds of a block, the clamps, the overlay test, and the QP of each unit. -/

namespace Sys2Proof.Machine

/-- The sum of absolute differences of the `n` × `n` block at (`x`, `y`) and the block displaced by (`dx`, `dy`) in another
picture. -/
def sad (a b : List (List Nat)) (n x y : Nat) (dx dy : Int) : Nat :=
  sumL ((List.range n).flatMap fun j => (List.range n).map fun i =>
    ((pix a (x + i : Nat) (y + j : Nat) : Int) - pix b ((x + i : Nat) + dx) ((y + j : Nat) + dy)).natAbs)

-- Coarse search ---------------------------------------------------------------------------------------------------------

/-- The two cheapest vectors of a list, the earlier of equals first. -/
def bestTwo (cost : Int × Int → Nat) (vs : List (Int × Int)) : List (Int × Int) :=
  vs.foldl (fun best v =>
    match best with
    | [] => [v]
    | [a] => if a = v then [a] else if cost v < cost a then [v, a] else [a, v]
    | a :: b :: _ =>
      if v = a ∨ v = b then best
      else if cost v < cost a then [v, a] else if cost v < cost b then [a, v] else best) []

/-- The two best coarse vectors, in quarter-scale samples, of the 8 × 8 block (`bx`, `by`) of the analysis copy against a
reference's quarter-scale copy (R155): ±256 × ±128 on a grid of two, then every place within ±2 of the two best (log 74). -/
def coarseVectors (cur ref : List (List Nat)) (bx by_ : Nat) : List (Int × Int) :=
  let cost (v : Int × Int) : Nat := sad cur ref 8 (8 * bx) (8 * by_) v.1 v.2
  let first := bestTwo cost (gridOf 2 (-256) 256 (-128) 128)
  bestTwo cost (first ++ first.flatMap fun v => gridOf 1 (v.1 - 2) (v.1 + 2) (v.2 - 2) (v.2 + 2))

-- Seeds -----------------------------------------------------------------------------------------------------------------

/-- d of R157: ENC_FRAME packets of the session from the reference's up to the frame's. -/
def seqDistance (f : Frame) (r : Slot) : Int := (f.encSeq : Int) - r.encSeq

/-- The hint's vector as a seed against a reference (R157). -/
def hintSeed (f : Frame) (r : Slot) (h : Hint) : Option (Int × Int) :=
  let d := seqDistance f r
  if f.intra || decide (4 < d.natAbs) then none else h.mv.map fun v => (v.1 * d, v.2 * d)

/-- SEEDS; 0 acts as 4 (Table 07-7). -/
def Session.seedCount (x : Session) : Nat := let n := fld (x.tool 0) 19 3; if n = 0 then 4 else n

/-- A vector in quarter samples rounded to whole samples, half away from zero: R156 names no direction (DESIGN CHOICE, log 96). -/
def fullPel (v : Int × Int) : Int × Int := (roundAway v.1 4, roundAway v.2 4)

/-- Bounds of a vector in quarter samples by codec: across, and down (R159). -/
def vectorRange (codec : Nat) : (Int × Int) × (Int × Int) :=
  match codec with
  | 0 => ((-8192, 8192), (-8192, 8192))
  | 3 => ((-8192, 8192), (-2048, 2047))
  | _ => ((-32768, 32768), (-32768, 32768))

/-- A seed in whole samples, clamped so that the fine window of the 8 × 8 block at (`x`, `y`) lies inside the reference padded
by 96 samples, and into the codec's range (R159). -/
def clampSeed (codec w h x y : Nat) (v : Int × Int) : Int × Int :=
  let ((xl, xh), (yl, yh)) := vectorRange codec
  (clampI (-((xl.natAbs / 4 : Nat) : Int)) (xh / 4) (clampI (-88 - (x : Int)) ((w : Int) + 80 - x) v.1),
   clampI (-((yl.natAbs / 4 : Nat) : Int)) (yh / 4) (clampI (-88 - (y : Int)) ((h : Int) + 80 - y) v.2))

/-- The first `n` distinct candidates of a list, each with where it came from. -/
def firstDistinct (n : Nat) (cs : List (Seed × Int × Int)) : List (Seed × Int × Int) :=
  (cs.foldl (fun acc c => if acc.any fun a => a.2 == c.2 then acc else acc ++ [c]) []).take n

/-- The seeds of the 8 × 8 block at (`x`, `y`) of step 0 against reference `r` of its list, in whole samples (R156, R157,
R159): hint, best coarse vector, predicted vector, second coarse vector, zero. Only the first reference takes the hint. They are
clamped before they are compared (DESIGN CHOICE, log 96). -/
def Session.seedsOf (s : Session) (f : Frame) (d : StepDesc) (k : Nat) (r : Slot) (x y : Nat) (pred : Int × Int) :
    List (Seed × Int × Int) :=
  let hint : Option Hint := f.aligned[y / 8 * d.blockCols + x / 8]?
  let hs := if k = 0 && bit (s.tool 0) 27 then (hint.bind (hintSeed f r)).toList else []
  let cs := coarseVectors f.analysis r.quarter (x / 32) (y / 32)
  let coarse (i : Nat) : List (Seed × Int × Int) := (cs[i]?).toList.map fun v => (Seed.coarse, 4 * v.1, 4 * v.2)
  let place (c : Seed × Int × Int) : Seed × Int × Int := (c.1, clampSeed s.codec d.codedW d.codedH x y c.2)
  firstDistinct s.seedCount (((hs.map fun v => (Seed.hint, fullPel v)) ++ coarse 0 ++ [(Seed.predicted, fullPel pred)] ++ coarse 1 ++
    [(Seed.zero, 0, 0)]).map place)

/-- A vector in quarter samples clamped so that the block and `reach` whole samples around it lie inside the reference padded by
96 samples, and into the codec's range (R159). -/
def clampVector (codec w h reach : Nat) (b : Block) (v : Int × Int) : Int × Int :=
  let ((xl, xh), (yl, yh)) := vectorRange codec
  let edge : Int := 4 * (96 - reach)
  (clampI xl xh (clampI (-edge - 4 * b.x) (4 * ((w : Int) - b.x - b.w) + edge) v.1),
   clampI yl yh (clampI (-edge - 4 * b.y) (4 * ((h : Int) - b.y - b.h) + edge) v.2))

/-- A result keeps inside the codec's range and leaves the block inside the reference padded by 96 samples (R159). -/
def vectorOk (codec w h : Nat) (b : Block) (v : Int × Int) : Bool := clampVector codec w h 0 b v == v

-- Refinement ------------------------------------------------------------------------------------------------------------

/-- A sample of a reference for the place (`x`, `y`) under a vector in quarter samples, by the codec's filter (R158). -/
def predSample (codec : Nat) (ref : List (List Nat)) (x y : Nat) (v : Int × Int) : Nat :=
  if v.1 % 4 = 0 && v.2 % 4 = 0 then pix ref ((x : Int) + v.1 / 4) ((y : Int) + v.2 / 4)
  else Config.fractionalSample codec ref (4 * (x : Int) + v.1) (4 * (y : Int) + v.2) 4 4

/-- Differences of a block of a picture from its prediction under a vector. -/
def diffBlock (codec : Nat) (cur ref : List (List Nat)) (x y w h : Nat) (v : Int × Int) : List (List Int) :=
  (List.range h).map fun j => (List.range w).map fun i =>
    (pix cur (x + i : Nat) (y + j : Nat) : Int) - predSample codec ref (x + i) (y + j) v

/-- The cheapest of a list, the earliest of equals. -/
def cheapest {α : Type} (cost : α → Nat) : α → List α → α
  | a, [] => a
  | a, b :: r => if cost b < cost a then cheapest cost b r else cheapest cost a r

/-- The places `k` quarter samples from a vector on either axis or both, the vector itself left out (R158). -/
def ring (k : Nat) (v : Int × Int) : List (Int × Int) := (gridOf k (v.1 - k) (v.1 + k) (v.2 - k) (v.2 + k)).filter (· != v)

/-- What the searches make of a block's seeds, in quarter samples (R155, R158, R159, R164): the best of the whole places within
`reach` of a seed, then of the eight half and of the eight quarter places around it, clamped; none without a seed. -/
def searched (codec w h reach : Nat) (cur ref : List (List Nat)) (b : Block) (seeds : List (Seed × Int × Int)) :
    Option (Seed × Int × Int) :=
  let n : Int := 4 * reach
  let diff (v : Int × Int) := diffBlock codec cur ref b.x b.y b.w b.h v
  let soft (v : Int × Int) : Nat := Config.hadamard (diff v)
  match seeds.flatMap fun s => (gridOf 4 (s.2.1 - n) (s.2.1 + n) (s.2.2 - n) (s.2.2 + n)).map fun v => (s.1, v) with
  | [] => none
  | c :: cs =>
    let (seed, v) := cheapest (fun e => Config.integerCost (diff e.2)) c cs
    let half := cheapest soft v (ring 2 v)
    some (seed, clampVector codec w h 0 b (cheapest soft half (ring 1 half)))

-- Hints at a step --------------------------------------------------------------------------------------------------------

/-- A length of step `d` along an axis mapped to step 0, whose length is `n0`, from `n`. -/
def mapUp (n0 n v : Nat) : Nat := v * n0 / max 1 n

/-- Step 0's blocks of 8 × 8 samples under an area of a step, by column and row: the area's own on step 0, those at its mapped
place on a lower step (R164). -/
def blocksUnder (d0 d : StepDesc) (x0 x1 y0 y1 : Nat) : List (Nat × Nat) :=
  let cols (a b n0 n : Nat) : List Nat :=
    let lo := mapUp n0 n a / 8
    let hi := ceilDiv (ceilDiv (b * n0) (max 1 n)) 8
    (List.range (hi - lo)).map (lo + ·)
  (cols y0 (min d.codedH y1) d0.dispH d.dispH).flatMap fun j =>
    ((cols x0 (min d.codedW x1) d0.dispW d.dispW).filter fun i => decide (i < d0.blockCols)).map fun i => (i, min j (d0.blockRows - 1))

/-- The aligned hints under an area of a step. -/
def Frame.hintsUnder (f : Frame) (d0 d : StepDesc) (x0 x1 y0 y1 : Nat) : List Hint :=
  (blocksUnder d0 d x0 x1 y0 y1).filterMap fun (i, j) => f.aligned[j * d0.blockCols + i]?

-- Overlay ---------------------------------------------------------------------------------------------------------------

/-- The 8 × 8 block at (`x`, `y`) of step `k` is coded as static overlay (R160): its hints say so, the frame is inter and the
tool on, and reference 0 holds it within the bound. On a lower step all the hints at its mapped place must say so; R164 names no
number (DESIGN CHOICE, log 97). -/
def Session.overlayAt (s : Session) (f : Frame) (d0 d : StepDesc) (k x y : Nat) : Bool :=
  let hs := f.hintsUnder d0 d x (x + 8) y (y + 8)
  bit (s.tool 0) 26 && !f.intra && !hs.isEmpty && hs.all Hint.overlay &&
    match (f.refs.getD k []).head?, f.copies[k]? with
    | some r, some c => decide (sad c.y r.pic.y 8 x y 0 0 ≤ 128 * 2 ^ (s.bitDepth - 8))
    | _, _ => false

-- Unit QP ---------------------------------------------------------------------------------------------------------------

/-- Importance offset of a unit from its hints (R161). -/
def importanceOffset (strength : Nat) (hs : List Hint) : Int :=
  let is := (hs.map Hint.importance).filter (· != 0)
  let i : Int := if is.isEmpty then 8 else roundAway (sumL is : Nat) is.length
  roundAway ((8 - i) * strength) 7

/-- Samples of a list of lines inside [`x0`, `x1`) × [`y0`, `y1`). -/
def cut (ls : List (List Nat)) (x0 x1 y0 y1 : Nat) : List Nat :=
  ((ls.drop y0).take (y1 - y0)).flatMap fun l => (l.drop x0).take (x1 - x0)

/-- v + 1 as a fraction, v being the variance of some samples (R161). -/
def variancePlusOne (ss : List Nat) : Nat × Nat :=
  let n := max 1 ss.length
  let q := sumL (ss.map fun v => v * v)
  (n * q - sumL ss ^ 2 + n ^ 2, n ^ 2)

/-- Samples of the analysis copy under a unit of a step. -/
def Session.unitAnalysis (s : Session) (f : Frame) (d : StepDesc) (c r : Nat) : List Nat :=
  cut f.analysis (mapUp s.anaW d.codedW (64 * c)) (mapUp s.anaW d.codedW (min d.codedW (64 * c + 64)))
    (mapUp s.anaH d.codedH (64 * r)) (mapUp s.anaH d.codedH (min d.codedH (64 * r + 64)))

/-- v + 1 of every unit of a step, row by row. -/
def Session.variances (s : Session) (f : Frame) (d : StepDesc) : List (Nat × Nat) :=
  (List.range d.rows).flatMap fun r => (List.range d.cols).map fun c => variancePlusOne (s.unitAnalysis f d c r)

/-- round(strength × (log2 a − mean of log2 b) / 4) kept within ±4, `a` and every `b` being fractions (R161). The comparison
of the logarithms is one of whole powers: |strength × log2 R / (4 × n)| reaches k − 1/2 where R^(2 × strength) reaches
2^(4 × n × (2k − 1)), R being a^n over the product of the b. -/
def varianceOffset (strength : Nat) (a : Nat × Nat) (bs : List (Nat × Nat)) : Int :=
  if strength = 0 then 0
  else
    let n := max 1 bs.length
    let num := (a.1 ^ n * (bs.map (·.2)).foldl (· * ·) 1) ^ (2 * strength)
    let den := (a.2 ^ n * (bs.map (·.1)).foldl (· * ·) 1) ^ (2 * strength)
    let steps (p q : Nat) : Nat := ([1, 2, 3, 4].filter fun k => decide (q * 2 ^ (4 * n * (2 * k - 1)) ≤ p)).length
    (steps num den : Int) - steps den num

/-- The QP of unit (`c`, `r`) of a step under a lane's row QP (R143, R161); on a lower step from step 0's hints (R164). -/
def Session.unitQp (s : Session) (f : Frame) (d0 d : StepDesc) (rates : StepDesc) (qp c r : Nat) : Nat :=
  let imp := importanceOffset (fld (s.tool 0) 16 3) (f.hintsUnder d0 d (64 * c) (64 * c + 64) (64 * r) (64 * r + 64))
  let aq := fld (s.tool 0) 12 4
  let var := varianceOffset aq (variancePlusOne (s.unitAnalysis f d c r)) (if aq = 0 then [] else s.variances f d)
  (clampI rates.qpMin rates.qpMax ((qp : Int) + (imp + var) * s.qpUnit)).toNat

/-- Mode decision must evaluate the split of the 16 × 16 area at (`x`, `y`) of step 0: the depths under it span more than
0x1000 (R162). -/
def Session.splitDue (s : Session) (f : Frame) (d0 : StepDesc) (x y : Nat) : Bool :=
  let ds := (f.hintsUnder d0 d0 x (x + 16) y (y + 16)).map Hint.depth
  bit (s.tool 0) 25 && !ds.isEmpty && decide (0x1000 + ds.foldl min 0xFFFF < ds.foldl max 0)

end Sys2Proof.Machine
end

