-- ==== Sys2Proof/Machine/Conceal.lean ====
section
/-! DEFINITION. Damage and concealment of decode pictures (R235–R238): the flags of Table 10-8, the run of units that an error
discards, the substitute of a missing reference, and the samples of Table 10-9. -/

namespace Sys2Proof.Machine

-- Table 10-8 ------------------------------------------------------------------------------------------------------------

/-- The bit of Table 10-7 that an error sets: SYNTAX 23, ENTROPY 22, PARAM_SET 21, TRUNCATED 19, INPUT 18, or none. -/
def errorFlag : ParseError → Nat
  | .nalUnit | .parameterSet | .sliceHeader | .obu | .frameHeader | .tileGroup | .vp9Header | .superframe | .tileSize => 2 ^ 23
  | .sliceData | .tileData | .vp9Data => 2 ^ 22
  | .setMissing | .sequenceMissing => 2 ^ 21
  | .obuEnd | .truncated => 2 ^ 19
  | .source => 2 ^ 18
  | .neverCame => 0

/-- The formats that can show the error (Table 10-8). -/
def errorOf (codec : Nat) : ParseError → Bool
  | .nalUnit | .parameterSet | .setMissing | .sliceHeader | .sliceData => codec == 1 || codec == 2 || codec == 3
  | .obu | .obuEnd | .frameHeader | .sequenceMissing | .tileGroup | .tileData => codec == 0
  | .vp9Header | .superframe | .tileSize | .vp9Data => codec == 4
  | .truncated | .source | .neverCame => true

/-- What the error discards fits it (Table 10-8): a header of the picture loses it whole, as does a source that cannot be read;
a discarded set or a superframe index loses nothing; an error in a slice or tile never loses the picture. -/
def runFits (e : ParseError) (r : DamageRun) : Bool :=
  match e with
  | .frameHeader | .sequenceMissing | .vp9Header | .source => r == .picture
  | .parameterSet | .superframe => r == .nothing
  | .sliceData | .tileData | .vp9Data | .neverCame => match r with | .units .. => true | _ => false
  | _ => true

/-- Units of a picture in decode order: tile by tile, each in raster order (R236). -/
def tileScan (cols rows : Nat) (cs rs : List Nat) : List Nat :=
  let ends (l : List Nat) (n : Nat) : List (Nat × Nat) := l.zip (l.drop 1 ++ [n])
  (ends rs rows).flatMap fun (r0, r1) => (ends cs cols).flatMap fun (c0, c1) =>
    (List.range (r1 - r0)).flatMap fun i => (List.range (c1 - c0)).map fun j => (r0 + i) * cols + c0 + j

/-- The units that an error in slice or tile data discards (R236): from the first unit of the detecting unit's row within its
slice or tile, up to the first unit decoded from the resume point, or to the picture's last. -/
def discarded (cols rows : Nat) (cs rs : List Nat) (detected first : Nat) (resume : Option Nat) : List Nat :=
  let scan := tileScan cols rows cs rs
  let at_ (u : Nat) : Nat := scan.idxOf u
  let left := (cs.filter fun c => decide (c ≤ detected % max 1 cols)).foldl max 0
  let start := max (at_ (detected / max 1 cols * cols + left)) (at_ first)
  let stop := match resume with | some u => at_ u | none => scan.length
  (scan.take stop).drop start

-- Substitutes -------------------------------------------------------------------------------------------------------------

/-- Output order numbers `a` before `b`: by EPOCH, then by ORDER as a signed 16-bit difference (R223). -/
def orderBefore (a b : Word) : Bool :=
  let ea := fld a 16 16
  let eb := fld b 16 16
  if ea = eb then
    let d := (fld b 0 16 + 65536 - fld a 0 16) % 65536
    decide (0 < d) && decide (d < 32768)
  else decide (ea < eb)

/-- The good picture of a visible set nearest before a picture in output order (R238). -/
def substituteIn (vis : List Slot) (order : Word) : Option Slot :=
  (vis.filter fun z => z.flags == 0 && orderBefore z.order order).foldl (fun acc z =>
    match acc with
    | some y => if orderBefore y.order z.order then some z else acc
    | none => some z) none

/-- Width and height of a picture's chroma planes. -/
def chromaSize (chroma w h : Nat) : Nat × Nat :=
  (if chroma = 2 then w else ceilDiv w 2, if chroma = 0 then ceilDiv h 2 else h)

/-- A picture of mid-grey (Table 10-9). -/
def midGrey (depth chroma w h : Nat) : Samples :=
  let plane (w h : Nat) : List (List Nat) := List.replicate h (List.replicate w (2 ^ (depth - 1)))
  let (cw, ch) := chromaSize chroma w h
  { y := plane w h, cb := plane cw ch, cr := plane cw ch }

/-- A picture read at a size: edge repeat, or resampled for VVC (R238). -/
def readAt (codec chroma w h : Nat) (p : Samples) : Samples :=
  let (cw, ch) := chromaSize chroma w h
  let plane (ls : List (List Nat)) (w h : Nat) : List (List Nat) :=
    if ls.length = h ∧ (ls.headD []).length = w then ls
    else if codec = 2 then Config.resampled ls w h
    else (List.range h).map fun (j : Nat) => (List.range w).map fun (i : Nat) => pix ls i j
  { y := plane p.y w h, cb := plane p.cb cw ch, cr := plane p.cr cw ch }

-- Table 10-9 ----------------------------------------------------------------------------------------------------------------

/-- What concealment works with: the picture's units, the discarded ones, the vectors to the first reference, and the first
reference as it is read, none for an intra picture. -/
structure Holes where
  codec : Nat
  depth : Nat
  cols : Nat
  rows : Nat
  units : List Nat
  vectors : List ((Nat × Nat) × (Int × Int))
  ref : Option Samples
deriving DecidableEq, Repr

/-- The first and the last row of the discarded run of unit column `c` that row `r` lies in. -/
def Holes.column (o : Holes) (c r : Nat) : Nat × Nat :=
  let out (i : Nat) : Bool := o.units.contains (i * o.cols + c)
  let up := ((List.range (r + 1)).reverse.takeWhile out).length
  let down := (((List.range o.rows).drop r).takeWhile out).length
  (r + 1 - up, r + down - 1)

/-- A list of numbers, smallest first. -/
def ascending (xs : List Int) : List Int :=
  let rec insert (x : Int) : List Int → List Int
    | [] => [x]
    | y :: r => if x ≤ y then x :: y :: r else y :: insert x r
  xs.foldr insert []

/-- The median of a list: of two middle ones the lower (log 81). -/
def medianOf (xs : List Int) : Int := (ascending xs).getD ((xs.length - 1) / 2) 0

/-- Method 2's vector for a unit (Table 10-9): the component-wise median of the vectors of the decoded 8 × 8 blocks directly above
and below the run in the unit's column. -/
def Holes.vector (o : Holes) (c r : Nat) : Option (Int × Int) :=
  let (top, bottom) := o.column c r
  let cells := (List.range 8).flatMap fun i => (if top = 0 then [] else [(8 * c + i, 8 * top - 1)]) ++ [(8 * c + i, 8 * (bottom + 1))]
  match cells.filterMap fun e => (o.vectors.find? fun v => v.1 == e).map (·.2) with
  | [] => none
  | vs => some (medianOf (vs.map (·.1)), medianOf (vs.map (·.2)))

/-- Vector units to a luma sample: eighths of AV1 and VP9, sixteenths of VVC, quarters of HEVC and AVC (PRESUMED from the
standards, log 104). -/
def vectorParts (codec : Nat) : Nat := if codec = 0 ∨ codec = 4 then 8 else if codec = 2 then 16 else 4

/-- A motion-compensated sample of a plane whose samples lie `sx` × `sy` luma samples apart. -/
def mcSample (codec : Nat) (ref : List (List Nat)) (sx sy x y : Nat) (v : Int × Int) : Nat :=
  let nx := vectorParts codec * sx
  let ny := vectorParts codec * sy
  let px : Int := (nx * x : Nat) + v.1
  let py : Int := (ny * y : Nat) + v.2
  if px % (nx : Int) = 0 ∧ py % (ny : Int) = 0 then pix ref (px / (nx : Int)) (py / (ny : Int))
  else Config.fractionalSample codec ref px py nx ny

/-- A discarded sample of a plane (Table 10-9, methods 2 to 6); interpolation rounds half up (log 81). -/
def Holes.sample (o : Holes) (own : List (List Nat)) (ref : Option (List (List Nat))) (sx sy x y : Nat) : Nat :=
  let c := sx * x / 64
  let r := sy * y / 64
  match ref with
  | some l => mcSample o.codec l sx sy x y ((o.vector c r).getD (0, 0))
  | none =>
    let (top, bottom) := o.column c r
    let y0 := 64 * top / sy
    let y1 := 64 * (bottom + 1) / sy
    let above := if top = 0 then none else some (pix own x ((y0 : Int) - 1))
    let below := if own.length ≤ y1 then none else some (pix own x y1)
    match above, below with
    | some a, some b => roundDiv (a * (y1 - y) + b * (y + 1 - y0)) (y1 + 1 - y0)
    | some a, none => a
    | none, some b => b
    | none, none => 2 ^ (o.depth - 1)

/-- A plane with its discarded units concealed; the in-loop filters leave those as they are (R237). -/
def Holes.plane (o : Holes) (own : List (List Nat)) (ref : Option (List (List Nat))) (sx sy : Nat) : List (List Nat) :=
  own.zipIdx.map fun (l, y) => l.zipIdx.map fun (v, x) =>
    if o.units.contains (sy * y / 64 * o.cols + sx * x / 64) then o.sample own ref sx sy x y else v

/-- A picture with its discarded units concealed. -/
def Holes.fill (o : Holes) (chroma : Nat) (p : Samples) : Samples :=
  if o.units.isEmpty then p
  else
    let sx := if chroma = 2 then 1 else 2
    let sy := if chroma = 0 then 2 else 1
    { y := o.plane p.y (o.ref.map Samples.y) 1 1, cb := o.plane p.cb (o.ref.map Samples.cb) sx sy,
      cr := o.plane p.cr (o.ref.map Samples.cr) sx sy }

end Sys2Proof.Machine
end

