-- ==== Sys2Proof/Machine/Partition.lean ====
section
/-! DEFINITION. How blocks may cut a row unit, and the transforms of their residuals (R144, Table 07-2). Where a block may cross
the picture's edge is taken from the codecs' standards (PRESUMED, log 103). -/

namespace Sys2Proof

open Sys2Proof.Machine

/-- The block carries a residual; an inter block without one is a skip. -/
def Block.residual (b : Block) : Bool := !b.transforms.isEmpty

/-- The block's place and size. -/
def Block.is (b : Block) (x y w h : Nat) : Bool := b.x == x && b.y == y && b.w == w && b.h == h

/-- The block's first sample lies in an area. -/
def Block.within (b : Block) (x y w h : Nat) : Bool :=
  decide (x ≤ b.x) && decide (b.x < x + w) && decide (y ≤ b.y) && decide (b.y < y + h)

end Sys2Proof

namespace Sys2Proof.Machine

-- Partitions -------------------------------------------------------------------------------------------------------------

/-- A block of `n` samples from `at_` on may stand on an axis `size` long: AV1's while its middle lies inside, the others' while
they end inside. -/
def reaches (codec size at_ n : Nat) : Bool :=
  if codec = 0 then decide (at_ + n / 2 < size) else decide (at_ + n ≤ size)

/-- The area is one block, or lies outside the picture. -/
def leafOk (codec : Nat) (d : StepDesc) (x y w h : Nat) (bs : List Block) : Bool :=
  match bs with
  | [] => decide (d.codedW ≤ x) || decide (d.codedH ≤ y)
  | [b] => b.is x y w h && reaches codec d.codedW x w && reaches codec d.codedH y h
  | _ => false

/-- Parts of a binary or ternary split of VVC, of `w` × `h` samples at (`x`, `y`). -/
def multiSplits (x y w h : Nat) : List (List (Nat × Nat × Nat × Nat)) :=
  [[(x, y, w, h / 2), (x, y + h / 2, w, h / 2)], [(x, y, w / 2, h), (x + w / 2, y, w / 2, h)],
   [(x, y, w, h / 4), (x, y + h / 4, w, h / 2), (x, y + h / 4 * 3, w, h / 4)],
   [(x, y, w / 4, h), (x + w / 4, y, w / 2, h), (x + w / 4 * 3, y, w / 4, h)]]

/-- The blocks come from binary and ternary splits to 8, `depth` of them at most. -/
def multiTree (d : StepDesc) (depth x y w h : Nat) (bs : List Block) : Bool :=
  match depth with
  | 0 => leafOk 2 d x y w h bs
  | n + 1 => leafOk 2 d x y w h bs || (multiSplits x y w h).any fun ps =>
      ps.all fun (a, b, c, e) => decide (8 ≤ min c e) && multiTree d n a b c e (bs.filter fun z => z.within a b c e)

/-- The blocks are the two halves of a square, across or down (HORZ and VERT of AV1, 2N×N and N×2N of HEVC). -/
def halvesOk (codec : Nat) (d : StepDesc) (x y n : Nat) (bs : List Block) : Bool :=
  let m := n / 2
  let rx := reaches codec d.codedW x n
  let ry := reaches codec d.codedH y n
  !bs.isEmpty &&
    ((rx && (codec == 0 || ry) && bs.all fun b => b.is x y n m || b.is x (y + m) n m) ||
      (ry && (codec == 0 || rx) && bs.all fun b => b.is x y m n || b.is (x + m) y m n))

/-- The blocks of a square come from quad-tree splits, and from the codec's splits below them. -/
def quadTree (codec : Nat) (d : StepDesc) (fuel x y n : Nat) (bs : List Block) : Bool :=
  leafOk codec d x y n n bs || (codec != 2 && halvesOk codec d x y n bs) || (codec == 2 && multiTree d 2 x y n n bs) ||
    match fuel with
    | 0 => false
    | k + 1 =>
      let m := n / 2
      [(x, y), (x + m, y), (x, y + m), (x + m, y + m)].all fun (u, v) =>
        quadTree codec d k u v m (bs.filter fun b => b.within u v m m)

/-- The blocks of an AVC macroblock: of one size, all inter or all intra. -/
def macroblockOk (inter : Block → Bool) : List Block → Bool
  | [] => true
  | b :: r => r.all fun c => c.w == b.w && c.h == b.h && inter c == inter b

/-- The blocks of a row of units are cut as the codec cuts its units; an area where a span has no block is not its own. -/
def treesOk (codec : Nat) (d : StepDesc) (row : Nat) (bs : List Block) : Bool :=
  if codec = 3 then
    (List.range (ceilDiv d.codedW 16)).all fun i => (List.range 4).all fun j =>
      macroblockOk (fun b => match b.coding with | .inter _ _ _ => true | _ => false)
        (bs.filter fun b => b.within (16 * i) (64 * row + 16 * j) 16 16)
  else (List.range d.cols).all fun c =>
    let us := bs.filter fun b => b.within (64 * c) (64 * row) 64 64
    us.isEmpty || quadTree codec d 4 (64 * c) (64 * row) 64 us

/-- The largest block that holds the place (`px`, `py`) in the square of side `n` at (`x`, `y`): its place and side. -/
def largestAt (codec : Nat) (d : StepDesc) (px py : Nat) : Nat → Nat → Nat → Nat → Nat × Nat × Nat
  | 0, x, y, n => (x, y, n)
  | k + 1, x, y, n =>
    if reaches codec d.codedW x n && reaches codec d.codedH y n then (x, y, n)
    else
      let m := n / 2
      largestAt codec d px py k (if px < x + m then x else x + m) (if py < y + m then y else y + m) m

/-- The block is the largest that the codec allows at its place (R186): the 64 × 64 unit, cut only where the picture's edge asks for
it, or the macroblock of AVC. -/
def largestBlock (b : Block) (codec : Nat) (d : StepDesc) : Bool :=
  if codec = 3 then b.w == 16 && b.h == 16
  else
    let (x, y, n) := largestAt codec d b.x b.y 3 (b.x / 64 * 64) (b.y / 64 * 64) 64
    b.is x y n n

-- Transforms -------------------------------------------------------------------------------------------------------------

/-- A transform of the block's residual is one of its codec's, and the session's tools allow it (R144, R166). -/
def Session.transformOk (x : Session) (b : Block) (t : Transform) : Bool :=
  let off24 := bit (x.tool 0) 24
  let lfnstOff := bit (x.tool 1) 26
  let mtsOff := bit (x.tool 1) 25
  let both (k : Kernel) : Bool := t.across == k && t.down == k
  let sized (ns : List Nat) : Bool := ns.contains t.w && ns.contains t.h
  decide (t.w ≤ b.w) && decide (t.h ≤ b.h) && t.optimised == !off24 && (!t.lfnst || (x.codec == 2 && !lfnstOff)) &&
    match x.codec with
    | 0 =>
      let one (k : Kernel) : Bool := k == .dct || k == .adst || k == .flipAdst
      sized [4, 8, 16, 32, 64] && (both .identity || (one t.across && one t.down))
    | 1 => t.w == t.h &&
        ((both .dct && sized [4, 8, 16, 32]) || ((both .dst || both .identity) && sized [4]))
    | 2 => (both .dct && sized [4, 8, 16, 32, 64]) ||
        (!mtsOff && both .mts && sized [4, 8, 16, 32])
    | _ => both .integer && t.w == t.h && sized [4, 8]

end Sys2Proof.Machine
end

