-- ==== Sys2Proof/Machine/Blocks.lean ====
section
/-! DEFINITION. What a lane of a span may make of a row of its share: the blocks that the tools, the hints, the searched
vectors and closing mode allow (R144, R153, R158–R164, R186), the lane's end state (R176, R180), and the counts and means of
the statistics record (R170). -/

namespace Sys2Proof

open Sys2Proof.Machine

-- What a block or a lane says of itself -----------------------------------------------------------------------------------

/-- The block holds a sample. -/
def Block.has (b : Block) (x y : Int) : Bool :=
  decide ((b.x : Int) ≤ x) && decide (x < (b.x + b.w : Nat)) && decide ((b.y : Int) ≤ y) && decide (y < (b.y + b.h : Nat))

/-- Two blocks share no sample. -/
def Block.apart (a b : Block) : Bool :=
  decide (a.x + a.w ≤ b.x) || decide (b.x + b.w ≤ a.x) || decide (a.y + a.h ≤ b.y) || decide (b.y + b.h ≤ a.y)

/-- Samples of the block inside the picture. -/
def Block.area (b : Block) (d : StepDesc) : Nat := (min d.codedW (b.x + b.w) - b.x) * (min d.codedH (b.y + b.h) - b.y)

/-- Places of the block's areas of 8 × 8 samples inside the picture. -/
def Block.cells (b : Block) (d : StepDesc) : List (Nat × Nat) :=
  ((List.range (ceilDiv b.h 8)).flatMap fun j => (List.range (ceilDiv b.w 8)).map fun i => (b.x / 8 * 8 + 8 * i, b.y / 8 * 8 + 8 * j)).filter
    fun c => decide (c.1 < d.codedW) && decide (c.2 < d.codedH)

/-- The block predicts from samples of its own picture. -/
def Block.isInter (b : Block) : Bool := match b.coding with | .inter _ _ _ => true | _ => false

/-- The block stands where its size may stand. -/
def Block.placed (b : Block) (codec : Nat) : Bool :=
  if codec = 2 then b.x % 8 == 0 && b.y % 8 == 0 && decide (b.x % 64 + b.w ≤ 64) && decide (b.y % 64 + b.h ≤ 64)
  else b.x % b.w == 0 && b.y % b.h == 0

/-- Depth of a block below the 64 × 64 unit. -/
def Block.depth (b : Block) : Nat := 6 - Nat.log2 (max b.w b.h)

/-- Squared errors of a block's lines at (`x`, `y`) of a plane. -/
def squaredError (plane : List (List Nat)) (x y : Nat) (block : List (List Nat)) : Nat :=
  sumL (block.zipIdx.flatMap fun (l, j) => l.zipIdx.map fun (v, i) => ((pix plane (x + i : Nat) (y + j : Nat) : Int) - v).natAbs ^ 2)

/-- D of a candidate (R158): the sum of squared errors of its reconstruction against the conditioned picture, over its three
components (log 102). -/
def Trial.dist (t : Trial) (chroma : Nat) (c : Samples) : Nat :=
  let x := if chroma = 2 then t.block.x else t.block.x / 2
  let y := if chroma = 0 then t.block.y / 2 else t.block.y
  squaredError c.y t.block.x t.block.y t.recon.y + squaredError c.cb x y t.recon.cb + squaredError c.cr x y t.recon.cr

/-- D + λR of a candidate, in units of 1/65,536 (R158). -/
def Trial.cost (t : Trial) (chroma : Nat) (c : Samples) (codec qp : Nat) : Nat :=
  t.dist chroma c * 65536 + Config.lambda codec qp * t.rate

/-- A candidate's reconstruction has its size inside the picture. -/
def Trial.fits (t : Trial) (chroma : Nat) (d : StepDesc) : Bool :=
  samplesFit chroma (min d.codedW (t.block.x + t.block.w) - t.block.x) (min d.codedH (t.block.y + t.block.h) - t.block.y) t.recon

/-- Two blocks lie at one place and have one size. -/
def Block.over (a b : Block) : Bool := a.x == b.x && a.y == b.y && a.w == b.w && a.h == b.h

/-- The zero vector from reference 0 and no residual (R160, R186), as a vector of its own or as the codec's candidate. -/
def Block.still (b : Block) (own : Bool) : Bool :=
  !b.residual && match b.coding with
    | .inter [m] searched .none => searched == own && m.ref == 0 && m.x == 0 && m.y == 0 && m.seed == .zero
    | _ => false

/-- A screen content tool (R163). -/
def Block.isScreen (b : Block) : Bool := match b.coding with | .palette _ => true | .blockCopy _ _ => true | _ => false

/-- Bits of a lane's header units. -/
def Lane.headBits (l : Lane) : Nat := 8 * sumL (l.heads.map List.length)

/-- Bits of a lane's row, headers among them (R182). -/
def Lane.bits (l : Lane) : Nat := l.headBits + sumL (l.streams.map List.length)

/-- Bits that a lane's units take, headers apart (R186). -/
def Lane.unitBits (l : Lane) : Nat := l.bits - l.headBits - l.header

/-- The block is a skip: inter without a residual. -/
def Block.isSkip (b : Block) : Bool := b.isInter && !b.residual

end Sys2Proof

namespace Sys2Proof.Machine

-- Place ------------------------------------------------------------------------------------------------------------------

/-- A row of a span's share of a step, as a lane codes it. -/
structure RowAt where
  k : Nat
  member : Nat
  /-- The step, step 0, and the spans that code the step. -/
  d : StepDesc
  d0 : StepDesc
  g : Nat
  rates : StepDesc
  share : RowShare
  /-- The lane's row QP. -/
  qp : Nat
  closed : Bool
  base : RowStart
deriving DecidableEq, Repr

/-- The split of a step among its spans. -/
def splitOf (codec : Nat) (d : StepDesc) (g : Nat) : Split := (stepSplit codec d g).getD .whole

/-- The luma sample (`x`, `y`) of the row belongs to the span's share (R152). -/
def RowAt.owns (a : RowAt) (codec x y : Nat) : Bool :=
  y / 64 == a.share.row &&
    match splitOf codec a.d a.g with
    | .whole => true
    | .rows => true
    | .columns =>
      let (c0, n) := spanCols codec a.d a.g a.member
      decide (c0 ≤ x / 64) && decide (x / 64 < c0 + n)
    | .slices =>
      let u := if codec = 1 then 64 else 16
      let w := ceilDiv a.d.codedW u
      let n := w * ceilDiv a.d.codedH u
      let i := y / u * w + x / u
      decide (nearStart a.g n a.member ≤ i) && decide (i < nearStart a.g n (a.member + 1))

/-- AV1 tile columns of a step. -/
def stepTiles (codec : Nat) (d : StepDesc) (g : Nat) : Nat :=
  if codec = 0 then (match splitOf codec d g with | .whole => tileCols d 1 | .columns => tileCols d g | _ => 1) else 1

/-- Tile or slice streams that one span codes in a row (R147, R152). -/
def RowAt.streams (a : RowAt) (codec : Nat) : Nat :=
  match splitOf codec a.d a.g with
  | .columns => stepTiles codec a.d a.g / max 1 a.g
  | _ => stepTiles codec a.d a.g

/-- The two columns of samples lie in one tile (R153). -/
def RowAt.sameTile (a : RowAt) (codec x y : Nat) : Bool :=
  let t := stepTiles codec a.d a.g
  let col (v : Nat) := (List.range t).find? fun c => decide (v / 64 < nearStart t a.d.cols (c + 1))
  col x == col y

/-- Tile rows of an AV1 step whose tiles are `t` columns: doubled while a tile holds more than 4,096 × 2,304
samples (Table 07-4). -/
def tileRows (d : StepDesc) (t n : Nat) : Nat :=
  if min d.codedW (64 * nearSize t d.cols 0) * min d.codedH (64 * nearSize n d.rows 0) ≤ 9437184 then n else 2 * n

-- Blocks -----------------------------------------------------------------------------------------------------------------

/-- References and vectors of the block that holds a sample. -/
def motionAt (bs : List Block) (x y : Int) : List (Nat × Int × Int) :=
  match bs.find? fun b => b.has x y with
  | some b => (match b.coding with | .inter ms _ _ => ms.map fun m => (m.ref, m.x, m.y) | _ => [])
  | none => []

/-- The predicted vector of the area of `w` samples across at (`x`, `y`) toward a reference (R156). -/
def predictedAt (codec ref : Nat) (near : List Block) (x y w : Int) : Int × Int :=
  Config.predictedVector codec ref [motionAt near (x - 1) y, motionAt near x (y - 1), motionAt near (x + w) (y - 1)]

/-- Candidates that the codec makes of a block's neighbours. -/
def mergeOf (codec : Nat) (near : List Block) (b : Block) : List (List (Nat × Int × Int)) :=
  Config.mergeCandidates codec
    [motionAt near ((b.x : Int) - 1) b.y, motionAt near b.x ((b.y : Int) - 1), motionAt near (b.x + b.w : Nat) ((b.y : Int) - 1),
     motionAt near ((b.x : Int) - 1) (b.y + b.h : Nat), motionAt near ((b.x : Int) - 1) ((b.y : Int) - 1)]

/-- Sizes of a block that a codec's encoder evaluates (Table 07-2). -/
def sizeOk (codec : Nat) (inter : Bool) (w h : Nat) : Bool :=
  let p (n : Nat) : Bool := [8, 16, 32, 64].contains n
  let half := w == 2 * h || h == 2 * w
  match codec with
  | 0 => (w == 4 && h == 4 && !inter) || (p w && p h && (w == h || half))
  | 1 => (p w && w == h) || (inter && half && p (max w h))
  | 2 => p w && p h
  | _ => if inter then (w == 16 || w == 8) && (h == 16 || h == 8) else w == h && [4, 8, 16].contains w

/-- The codec has this intra direction for blocks `w` wide (Table 07-2). -/
def modeOk (codec w : Nat) : IntraMode → Bool
  | .dc => true
  | .planar => codec != 3 || w == 16
  | .angle n => decide (n < (match codec with | 0 => 59 | 1 => 33 | 2 => 65 | _ => if w = 16 then 2 else 8))

/-- The session codes frames from two references at once: compound of AV1 in Balanced and Archive, B slices in a pyramid
(R145, Table 07-2). -/
def Session.biPredicts (x : Session) : Bool := x.latency != 0 && (x.codec == 0 || x.bframes != 0)

/-- IBC may be used in the frame (R163). -/
def Session.blockCopies (x : Session) (f : Frame) : Bool := bit (x.tool 0) 29 && (x.codec == 2 || f.intra)

/-- A block beside `b` in the span's tile predicts from the same reference (R158). -/
def warpNeighbour (near : List Block) (b : Block) (ref : Nat) : Bool :=
  near.any fun n =>
    (n.has ((b.x : Int) - 1) b.y || n.has b.x ((b.y : Int) - 1)) &&
      match n.coding with | .inter ms _ _ => ms.any (fun m => m.ref == ref) | _ => false

/-- The vectors may bend in this way (R158, Table 07-7). -/
def Session.warpOk (x : Session) (near : List Block) (b : Block) (ref : Nat) : Warp → Bool
  | .none => true
  | .affine4 => bit (x.tool 0) 28 && x.codec == 2 && decide (16 ≤ b.w) && decide (16 ≤ b.h)
  | .affine6 => bit (x.tool 0) 28 && x.codec == 2 && decide (32 ≤ b.w) && decide (32 ≤ b.h)
  | .localWarp => bit (x.tool 0) 28 && x.codec == 0 && decide (8 ≤ b.w) && decide (8 ≤ b.h) && warpNeighbour near b ref

-- Lower steps ------------------------------------------------------------------------------------------------------------

/-- Blocks of step 0 as it was kept. -/
def Frame.stepZero (f : Frame) : List Block := (f.keptRows.filter fun r => r.step == 0).flatMap fun r => r.lane.blocks

/-- A place of a lower step mapped to step 0 (R164). -/
def RowAt.up (a : RowAt) (x y : Nat) : Nat × Nat := (mapUp a.d0.dispW a.d.dispW x, mapUp a.d0.dispH a.d.dispH y)

/-- Seeds that a unit of a lower step inherits against reference `r` (R164), in quarter samples: the first two distinct vectors
of the step 0 blocks on its mapped area, in their order, scaled (log 99). -/
def RowAt.inherited (a : RowAt) (f : Frame) (r x y : Nat) : List (Int × Int) :=
  let (x0, y0) := a.up (x / 64 * 64) (y / 64 * 64)
  let (x1, y1) := a.up (x / 64 * 64 + 64) (y / 64 * 64 + 64)
  let on := f.stepZero.filter fun b => decide (b.x < x1) && decide (x0 < b.x + b.w) && decide (b.y < y1) && decide (y0 < b.y + b.h)
  let vs := on.flatMap fun b =>
    match b.coding with
    | .inter ms _ _ => (ms.filter fun m => m.ref == r).map fun m =>
        (roundAway (m.x * a.d.dispW) a.d0.dispW, roundAway (m.y * a.d.dispH) a.d0.dispH)
    | _ => []
  (firstDistinct 2 (vs.map fun v => (Seed.inherited, v))).map (·.2)

/-- log2 of the width ratio, rounded to the nearest whole number: n where the ratio lies in [2^(n − 1/2), 2^(n + 1/2)). -/
def ratioLog (w0 w : Nat) : Nat := Nat.log2 (2 * w0 ^ 2 / max 1 (w ^ 2)) / 2

/-- The block may be evaluated on a lower step (R164): at the depth of the covering step 0 block reduced by the ratio or one
below, and an intra direction only if it is that block's, DC, or planar (log 75). Of several step 0 blocks the covering one is
the one under the block's mapped centre; R164 does not say which (DESIGN CHOICE, log 97). -/
def RowAt.lowerOk (a : RowAt) (f : Frame) (b : Block) : Bool :=
  let (cx, cy) := a.up (b.x + b.w / 2) (b.y + b.h / 2)
  match f.stepZero.find? fun z => z.has (cx : Nat) (cy : Nat) with
  | some z =>
    let deep := z.depth - ratioLog a.d0.dispW a.d.dispW
    (b.depth == deep || b.depth == deep + 1) &&
      match b.coding with
      | .intra m => m == .dc || m == .planar || z.coding == .intra m
      | _ => true
  | none => true

-- Vectors ----------------------------------------------------------------------------------------------------------------

/-- What the motion search finds for the block toward reference `n` of its list (R155, R158, R164): on step 0 from the seeds of
its 8 × 8 areas, on a lower step from the inherited ones. -/
def Session.found (x : Session) (f : Frame) (a : RowAt) (near : List Block) (b : Block) (n : Nat) : Option (Seed × Int × Int) :=
  match (f.refs.getD a.k [])[n]? with
  | none => none
  | some r =>
    let cur := (f.copies.getD a.k Samples.none).y
    if a.k = 0 then
      searched x.codec a.d.codedW a.d.codedH 8 cur r.pic.y b ((b.cells a.d).flatMap fun c =>
        (x.seedsOf f a.d n r c.1 c.2 (predictedAt x.codec n near c.1 c.2 8)).map fun s => (s.1, 4 * s.2.1, 4 * s.2.2))
    else
      searched x.codec a.d.codedW a.d.codedH 2 cur r.pic.y b ((a.inherited f n b.x b.y).map fun v =>
        (Seed.inherited, clampVector x.codec a.d.codedW a.d.codedH 2 b v))

/-- The seed that a vector taken from the neighbours counts under (Table 07-10). -/
def RowAt.candidateSeed (a : RowAt) (m : Motion) : Bool :=
  m.seed == (if a.k = 0 then .predicted else .inherited) || (m.seed == .zero && m.x == 0 && m.y == 0)

/-- The block's vectors are what the search found (R155, R158, R164), or one of the codec's candidates as it is; bent ones start
from a neighbour's vector or the refined one (R158). -/
def Session.vectorsFrom (x : Session) (f : Frame) (a : RowAt) (near : List Block) (b : Block) (searched : Bool) (warp : Warp)
    (ms : List Motion) : Bool :=
  let found (m : Motion) : Bool := x.found f a near b m.ref == some (m.seed, m.x, m.y)
  let merged : Bool := ms.all a.candidateSeed && (mergeOf x.codec near b).contains (ms.map fun m => (m.ref, m.x, m.y))
  if warp != .none then ms.all fun m => found m || (a.candidateSeed m &&
    (mergeOf x.codec near b).any fun c => c.contains (m.ref, m.x, m.y))
  else if searched then ms.all found else merged

/-- The block vectors that VVC allows (R163; PRESUMED from H.266, log 100): inside the block's tile and its row of CTUs, no more than
three CTUs back, and wholly before the block. -/
def RowAt.copyOk (a : RowAt) (codec : Nat) (b : Block) (v : Int × Int) : Bool :=
  let x0 : Int := (b.x : Int) + v.1
  let y0 : Int := (b.y : Int) + v.2
  decide (0 ≤ x0) && decide (0 ≤ y0) && (codec != 2 ||
    (decide (((b.x / 64 : Nat) : Int) ≤ x0 / 64 + 3) && y0 / 64 == ((b.y / 64 : Nat) : Int) &&
      (y0 + b.h - 1) / 64 == ((b.y / 64 : Nat) : Int) && decide ((x0 + b.w - 1) / 64 ≤ ((b.x / 64 : Nat) : Int)) &&
      (decide (v.1 + b.w ≤ 0) || decide (v.2 + b.h ≤ 0)) && a.sameTile codec x0.toNat b.x))

/-- The tools of the session's codec can make the block (R144, R158–R164). -/
def Session.blockOk (x : Session) (f : Frame) (a : RowAt) (near : List Block) (b : Block) : Bool :=
  sizeOk x.codec b.isInter b.w b.h && b.placed x.codec && a.owns x.codec b.x b.y && decide (b.x < a.d.codedW) &&
    decide (b.y < a.d.codedH) && (a.k == 0 || a.lowerOk f b) && b.transforms.all (x.transformOk b) &&
    match b.coding with
    | .intra m => modeOk x.codec b.w m
    | .palette n => bit (x.tool 0) 30 && within 2 8 n && decide (8 ≤ min b.w b.h)
    | .blockCopy u v => x.blockCopies f && a.copyOk x.codec b (u, v)
    | .inter ms searched warp =>
      !f.intra && within 1 (if x.biPredicts then 2 else 1) ms.length && x.vectorsFrom f a near b searched warp ms &&
        ms.all fun m => decide (m.ref < (f.refs.getD a.k []).length) && vectorOk x.codec a.d.codedW a.d.codedH b (m.x, m.y) &&
          x.warpOk near b m.ref warp

-- Mode decision ----------------------------------------------------------------------------------------------------------

/-- Mode decision chose the block among what it evaluated (R158), and evaluated what it must: palette, block copy, affine and
local warp where the session allows them, screen content first where every hint says overlay (R158, R163). -/
def Session.decidedOk (x : Session) (f : Frame) (a : RowAt) (near : List Block) (ts : List Trial) (b : Block) : Bool :=
  let here := ts.filter fun t => t.block.over b
  let hs := f.hintsUnder a.d0 a.d b.x (b.x + b.w) b.y (b.y + b.h)
  let pal := bit (x.tool 0) 30 && decide (8 ≤ min b.w b.h)
  let ibc := x.blockCopies f
  let warped (w : Warp) := here.any fun t => match t.block.coding with | .inter _ _ v => v == w | _ => false
  let aff := bit (x.tool 0) 28 && x.codec == 2 && !f.intra
  let bends := bit (x.tool 0) 28 && x.codec == 0 && !f.intra && decide (8 ≤ min b.w b.h) &&
    (List.range (f.refs.getD a.k []).length).any (warpNeighbour near b)
  let cost (t : Trial) : Nat := t.cost x.chroma (f.copies.getD a.k Samples.none) x.codec a.qp
  here.any (fun t => t.block == b && here.all fun u => u == t || decide (cost t ≤ cost u)) &&
    (!pal || here.any fun t => match t.block.coding with | .palette _ => true | _ => false) &&
    (!ibc || here.any fun t => match t.block.coding with | .blockCopy _ _ => true | _ => false) &&
    (!bends || warped .localWarp) && (!aff || ((decide (min b.w b.h < 16) || warped .affine4) && (decide (min b.w b.h < 32) || warped .affine6))) &&
    (!(pal || ibc) || hs.isEmpty || !hs.all Hint.overlay || match here with | t :: _ => t.block.isScreen | [] => false)

/-- A still block takes the cheapest form that its codec offers (R160): GLOBALMV of AV1; a zero merge candidate of HEVC and VVC, and
a vector of its own where the list holds none; P_Skip of a macroblock of AVC whose predicted vector is zero, and otherwise a
vector of its own. -/
def Session.stillOk (x : Session) (near : List Block) (b : Block) : Bool :=
  b.still (match x.codec with
    | 0 => false
    | 3 => !(b.w == 16 && b.h == 16) || predictedAt 3 0 near b.x b.y 16 != (0, 0)
    | _ => !(mergeOf x.codec near b).contains [(0, 0, 0)])

/-- The 8 × 8 areas of a block's CU or macroblock. -/
def RowAt.unitCells (a : RowAt) (codec : Nat) (b : Block) : List (Nat × Nat) :=
  if codec = 3 then { b with x := b.x / 16 * 16, y := b.y / 16 * 16, w := 16, h := 16 : Block }.cells a.d else b.cells a.d

/-- A block of an open row (R160): still where every 8 × 8 area of its CU or macroblock is static overlay, never mixed above
8 × 8, still in an 8 × 8 of its own there, else as mode decision chose it. -/
def Session.openOk (x : Session) (f : Frame) (a : RowAt) (near : List Block) (ts : List Trial) (b : Block) : Bool :=
  let at_ (c : Nat × Nat) := x.overlayAt f a.d0 a.d a.k c.1 c.2
  let own := (b.cells a.d).map at_
  let all := (a.unitCells x.codec b).map at_
  let stands := sizeOk x.codec true b.w b.h && b.placed x.codec && a.owns x.codec b.x b.y && x.stillOk near b
  if !all.isEmpty && all.all id then stands && (x.codec != 3 || (b.w == 16 && b.h == 16))
  else if !own.isEmpty && own.all id then stands && decide (max b.w b.h ≤ 8)
  else (!all.any id || decide (max b.w b.h ≤ 8)) && x.blockOk f a near b && x.decidedOk f a near ts b

/-- A block of a closed row (R186): still, or in an intra frame the largest block that the codec allows at its place, with DC and
no residual. -/
def Session.closedOk (x : Session) (f : Frame) (a : RowAt) (near : List Block) (b : Block) : Bool :=
  b.placed x.codec && a.owns x.codec b.x b.y &&
    if f.intra then largestBlock b x.codec a.d && !b.residual && b.coding == .intra .dc
    else sizeOk x.codec true b.w b.h && x.stillOk near b && (x.codec != 3 || (b.w == 16 && b.h == 16))

/-- The splits that depth asks for were evaluated (R162): every 16 × 16 area of the row on step 0 where the depths span more
than the bound, static overlay apart. -/
def Session.splitsTried (x : Session) (f : Frame) (a : RowAt) (ts : List Trial) : Bool :=
  a.k != 0 || (List.range 4).all fun j => (List.range (ceilDiv a.d.codedW 16)).all fun i =>
    let px := 16 * i
    let py := 64 * a.share.row + 16 * j
    decide (a.d.codedH ≤ py) || !a.owns x.codec px py || !x.splitDue f a.d0 px py ||
      [(0, 0), (8, 0), (0, 8), (8, 8)].all fun (ox, oy) =>
        decide (a.d.codedW ≤ px + ox) || decide (a.d.codedH ≤ py + oy) || x.overlayAt f a.d0 a.d 0 (px + ox) (py + oy) ||
          ts.any fun t => t.block.x == px + ox && t.block.y == py + oy && t.block.w == 8 && t.block.h == 8

-- Rows -------------------------------------------------------------------------------------------------------------------

/-- The blocks cover the span's part of the row, each sample once. -/
def tiled (d : StepDesc) (share : RowShare) : List Block → Bool
  | bs => decide (bs.Pairwise fun a b => a.apart b = true) && sumL (bs.map fun b => b.area d) == share.samples

/-- Bytes of one tile's or slice's context set (Table 08-1). -/
def contextBytes (codec : Nat) : Nat := match codec with | 0 => 15360 | 1 => 256 | _ => 512

/-- WPP codes the step's rows (Table 07-4). -/
def Session.wpp (x : Session) : Bool := bit (x.tool 0) 31

/-- Samples across a span's share of a row. -/
def RowAt.width (a : RowAt) (codec : Nat) : Nat :=
  match splitOf codec a.d a.g with
  | .columns => let (c0, n) := spanCols codec a.d a.g a.member; colSamples a.d.codedW c0 n
  | _ => a.d.codedW

/-- The lane's end state has the sizes of Table 08-1. -/
def Session.endOk (x : Session) (a : RowAt) (l : Lane) : Bool :=
  let n := a.width x.codec + 64
  let c := if x.chroma = 2 then n else n / 2
  l.streams.length == a.streams x.codec && l.coder.length == contextBytes x.codec * a.streams x.codec + 16 &&
    l.sync.length == (if x.wpp then contextBytes x.codec else 0) &&
    l.bottom.y.map List.length == [n] && l.bottom.cb.map List.length == [c] && l.bottom.cr.map List.length == [c]

/-- Blocks that a block may look to inside its tile or slice: the row's own and the bottom row of the one above. -/
def RowAt.near (a : RowAt) (codec : Nat) (l : Lane) (b : Block) : List Block :=
  (l.blocks ++ a.base.motion).filter fun n => a.sameTile codec n.x b.x

/-- The row begins a tile or slice. -/
def RowAt.begins (a : RowAt) : Bool := a.base == RowStart.fresh

/-- Header units stand in the first row of the gang's first span, headers of tiles and slices where one begins (R147, R182). -/
def RowAt.headsFit (a : RowAt) (l : Lane) : Bool :=
  (l.heads.isEmpty || (a.member == 0 && a.share.row == 0 && a.begins)) && (l.header == 0 || a.begins) &&
    decide (l.header + l.headBits ≤ l.bits)

/-- The stages of Table 07-3 can make this lane of the row. -/
def Session.laneOk (x : Session) (f : Frame) (a : RowAt) (l : Lane) : Bool :=
  tiled a.d a.share l.blocks && treesOk x.codec a.d a.share.row l.blocks && x.endOk a l && a.headsFit l &&
    if a.closed then
      l.trials.isEmpty && decide (l.unitBits ≤ 48 * a.share.units) && l.blocks.all fun b => x.closedOk f a (a.near x.codec l b) b
    else
      l.blocks.all (fun b => x.openOk f a (a.near x.codec l b) l.trials b) &&
        l.trials.all (fun t => t.fits x.chroma a.d && x.blockOk f a (a.near x.codec l t.block) t.block) &&
        x.splitsTried f a l.trials

/-- What the row after `a` starts from (Table 08-2): the lane's end state, the coder anew with WPP, and nothing at the first
row of a tile row. -/
def Session.after (x : Session) (a : RowAt) (l : Lane) : RowStart :=
  let t := stepTiles x.codec a.d a.g
  let n := if splitOf x.codec a.d a.g = .rows then a.g else tileRows a.d t 1
  if x.codec = 0 && (List.range n).any fun r => nearStart n a.d.rows r == a.share.row + 1 then RowStart.fresh
  else
    let foot := min a.d.codedH (64 * a.share.row + 64)
    { bottom := l.bottom, motion := l.blocks.filter fun b => decide (foot ≤ b.y + b.h), sync := l.sync,
      coder := if x.wpp then [] else l.coder }

-- Statistics -------------------------------------------------------------------------------------------------------------

/-- The kept rows of a step. -/
def Frame.rowsOf (f : Frame) (k : Nat) : List KeptRow := f.keptRows.filter fun r => r.step == k

/-- Units of a step with their QP and the blocks in them, row by row (R161, R186). -/
def Session.unitsOf (x : Session) (f : Frame) (k : Nat) (d0 d rates : StepDesc) : List (Nat × List Block) :=
  let rows := f.rowsOf k
  (List.range d.rows).flatMap fun r => (List.range d.cols).filterMap fun c =>
    let mine (e : KeptRow) := e.lane.blocks.filter fun b => b.x / 64 == c && b.y / 64 == r
    match rows.filter fun e => !(mine e).isEmpty with
    | e :: es => some (if e.closed then rates.qpMax else x.unitQp f d0 d rates e.qp c r, (e :: es).flatMap mine)
    | [] => none

/-- Inter-coded luma area of blocks, and the part whose first vector came from a seed of a kind. -/
def interArea (d : StepDesc) (p : Seed → Bool) (bs : List Block) : Nat :=
  sumL (bs.map fun b => match b.coding with
    | .inter (m :: _) _ _ => if p m.seed then b.area d else 0
    | _ => 0)

/-- A share of an area in whole per cent, rounded down; 0 of nothing (R170, log 76). -/
def percent (part whole : Nat) : Nat := if whole = 0 then 0 else 100 * part / whole

/-- A count that saturates at 16 bits. -/
def sat16 (n : Nat) : Nat := min n 65535

/-- PSNR of one component in units of 1/256 dB, rounded down; none when identical (Table 07-10, log 76): the largest n with
10^n at most (peak² × samples / squared error)^2560, found bit by bit. -/
def psnr (depth : Nat) (a b : List (List Nat)) : Option Nat :=
  let ps := (a.zip b).flatMap fun (l, m) => l.zip m
  let e := sumL (ps.map fun (u, v) => ((u : Int) - v).natAbs ^ 2)
  if e = 0 then none
  else
    let num := ((2 ^ depth - 1) ^ 2 * ps.length) ^ 2560
    let den := e ^ 2560
    some ((List.range 16).foldl (fun n i => let m := n + 2 ^ (15 - i); if den * 10 ^ m ≤ num then m else n) 0)

/-- PSNR_Y and PSNR_C of a reconstruction against the conditioned picture. PSNR_C reads 0xFFFF also where only one chroma plane is
identical: the table gives no mean of it (DESIGN CHOICE, log 98). -/
def psnrWord (depth : Nat) (c r : Samples) : Word :=
  let y := (psnr depth c.y r.y).getD 0xFFFF
  let ch := match psnr depth c.cb r.cb, psnr depth c.cr r.cr with
    | some u, some v => (u + v) / 2
    | _, _ => 0xFFFF
  at_ 16 (min y 65535) ||| at_ 0 (min ch 65535)

/-- Words 3 to 6, 9, 10 and 12 of a step's statistics record from what was kept of it (R168, R170, R181). -/
def Session.stepStats (x : Session) (f : Frame) (k : Nat) (d0 d rates : StepDesc) (recon : Samples) : List Word :=
  let us := x.unitsOf f k d0 d rates
  let qps := us.map (·.1)
  let bs := (f.rowsOf k).flatMap fun r => r.lane.blocks
  let count (p : Block → Bool) := sat16 (bs.filter p).length
  let overlay := sumL ((f.rowsOf k).map fun r =>
    if r.closed then 0 else ((r.lane.blocks.flatMap fun b => (b.cells d).filter fun c => b.has c.1 c.2).filter fun c => x.overlayAt f d0 d k c.1 c.2).length)
  let all := interArea d (fun _ => true) bs
  let pct (p : Seed → Bool) := percent (interArea d p bs) all
  [at_ 24 (qps.foldl min (qps.headD 0)) ||| at_ 16 (qps.foldl max 0) ||| at_ 0 (roundDiv (16 * sumL qps) (max 1 qps.length)),
   at_ 16 (sat16 (us.filter fun u => u.2.all fun b => !b.isInter).length) |||
     at_ 0 (sat16 (us.filter fun u => u.2.all Block.isSkip).length),
   at_ 16 (count fun b => match b.coding with | .blockCopy _ _ => true | _ => false) |||
     at_ 0 (count fun b => match b.coding with | .palette _ => true | _ => false),
   loW overlay,
   at_ 24 (pct (· == .hint)) ||| at_ 16 (pct (· == .coarse)) ||| at_ 8 (pct (· == .predicted)) |||
     at_ 0 (pct fun s => s == .zero || s == .inherited),
   psnrWord x.bitDepth (f.copies.getD k Samples.none) recon,
   at_ 16 (count fun b => match b.coding with | .inter _ _ w => w != .none | _ => false)]

end Sys2Proof.Machine
end

