-- ==== Sys2Proof/Machine/Units.lean ====
section
/-! DEFINITION. The form of the units of a step's bitstream (R147) and of the HDR metadata among them (R167). The type codes and
the syntax of the metadata are those of the codecs' standards, which the spec names (PRESUMED, log 101). -/

namespace Sys2Proof.Machine

-- Framing ----------------------------------------------------------------------------------------------------------------

/-- What follows the start code of an Annex B unit, of three or four bytes; none where there is no start code. -/
def annexB : List Byte → Option (List Byte)
  | 0 :: 0 :: 1 :: r => some r
  | 0 :: 0 :: 0 :: 1 :: r => some r
  | _ => none

/-- NAL unit type of a unit from its header. -/
def nalType (codec : Nat) (u : List Byte) : Nat :=
  match codec with
  | 1 => (u.headD 0).toNat / 2 % 64
  | 2 => (u.getD 1 0).toNat / 8
  | _ => (u.headD 0).toNat % 32

/-- NAL unit types that a kind of unit has; the last are those of slices. -/
def nalTypes (codec : Nat) : Option HeadUnit → List Nat
  | some .delimiter => match codec with | 1 => [35] | 2 => [20] | _ => [9]
  | some .parameterSet => match codec with | 1 => [32, 33, 34] | 2 => [13, 14, 15, 16, 17] | _ => [7, 8]
  | some .mastering => match codec with | 1 => [39] | 2 => [23] | _ => [6]
  | some .contentLight => match codec with | 1 => [39] | 2 => [23] | _ => [6]
  | some .other => match codec with | 1 => [39, 40] | 2 => [23, 24] | _ => [6]
  | some .sequenceHeader => []
  | some .frameHeader => []
  | none => match codec with | 1 => [0, 1, 19] | 2 => [0, 7] | _ => [1, 5]

/-- OBU types that a kind of unit has; the last is the tile group's. -/
def obuTypes : Option HeadUnit → List Nat
  | some .delimiter => [2]
  | some .sequenceHeader => [1]
  | some .frameHeader => [3]
  | some .parameterSet => []
  | some _ => [5]
  | none => [4]

/-- A unit has the form of its kind (R147): an Annex B NAL unit, or an OBU with obu_has_size_field = 1. `none` is a tile or slice
unit. -/
def unitOk (codec : Nat) (kind : Option HeadUnit) (u : List Byte) : Bool :=
  if codec = 0 then
    let h := (u.headD 0).toNat
    bit (loW h) 1 && (obuTypes kind).contains (h / 8 % 16)
  else match annexB u with
    | some r => (nalTypes codec kind).contains (nalType codec r)
    | none => false

-- HDR metadata -----------------------------------------------------------------------------------------------------------

/-- The bytes of a number, most significant first. -/
def bytesHigh (n v : Nat) : List Byte := (natBytes n v).reverse

/-- A payload with emulation prevention: a byte of 3 before any byte of 3 or less that follows two zeros. -/
def escaped (zeros : Nat) : List Byte → List Byte
  | [] => []
  | b :: r =>
    if 2 ≤ zeros ∧ b.toNat ≤ 3 then 3 :: b :: escaped (if b = 0 then 1 else 0) r
    else b :: escaped (if b = 0 then zeros + 1 else 0) r

/-- An SEI NAL unit of one message, after its start code. -/
def seiUnit (codec kind : Nat) (payload : List Byte) : List Byte :=
  (match codec with | 1 => [0x4E, 1] | 2 => [0, 0xB9] | _ => [6]) ++
    escaped 0 (BitVec.ofNat 8 kind :: BitVec.ofNat 8 payload.length :: payload ++ [0x80])

/-- A metadata OBU with its size. -/
def metadataObu (kind : Nat) (payload : List Byte) : List Byte :=
  0x2A :: BitVec.ofNat 8 (payload.length + 2) :: BitVec.ofNat 8 kind :: payload ++ [0x80]

/-- A chromaticity of units of 0.00002 in AV1's 16 fractional bits, and a luminance of units of 0.0001 cd/m² in `bits`
fractional bits, to the nearest, half up (R167; log 101). -/
def chromaFixed (v : Nat) : Nat := min 65535 (roundDiv (v * 65536) 50000)
def lumaFixed (bits v : Nat) : Nat := min (2 ^ 32 - 1) (roundDiv (v * 2 ^ bits) 10000)

/-- A chromaticity word as two AV1 numbers. -/
def chromaPair (w : Word) : List Byte := bytesHigh 2 (chromaFixed (fld w 16 16)) ++ bytesHigh 2 (chromaFixed (fld w 0 16))

/-- The payload of the mastering display colour volume of Table 07-8's words: green, blue, red, the white point and the two
luminances for an SEI message, and red first in fixed-point form for AV1. -/
def masteringPayload (codec : Nat) (hdr : List Word) : List Byte :=
  if codec = 0 then
    [2, 0, 1, 3].flatMap (fun i => chromaPair (wd hdr i)) ++ bytesHigh 4 (lumaFixed 8 (wd hdr 4).toNat) ++
      bytesHigh 4 (lumaFixed 14 (wd hdr 5).toNat)
  else (List.range 6).flatMap fun i => bytesHigh 4 (wd hdr i).toNat

/-- A metadata unit carries the session's HDR block (R167). -/
def metadataOk (codec : Nat) (hdr : List Word) (kind : HeadUnit) (u : List Byte) : Bool :=
  let light := bytesHigh 4 (wd hdr 6).toNat
  match kind with
  | .mastering =>
    if codec = 0 then u == metadataObu 2 (masteringPayload 0 hdr) else annexB u == some (seiUnit codec 137 (masteringPayload codec hdr))
  | .contentLight => if codec = 0 then u == metadataObu 1 light else annexB u == some (seiUnit codec 144 light)
  | _ => true

end Sys2Proof.Machine
end

