-- ==== Sys2Proof/Machine/Encode.lean ====
section
/-! DEFINITION. Encode frames on their gang: piers and decisions (R172–R179), the streams, units and packets of a
committed frame (R147, R244, R250), the full crossing (R23–R27, R168, R188, R203) and the writer's wait (R248). -/

namespace Sys2Proof.Machine

-- Piers --------------------------------------------------------------------------------------------------------

/-- The pier store of a decision row, empty before its first report. -/
def Frame.pier (f : Frame) (k i : Nat) : Pier :=
  (f.piers.find? fun p => p.step == k && p.row == i).getD { step := k, row := i, lanes := [] }

/-- The frame with the pier store of a decision row replaced. -/
def Frame.setPier (f : Frame) (p : Pier) : Frame :=
  { f with piers := if f.piers.any fun q => q.step == p.step && q.row == p.row
                    then f.piers.map fun q => if q.step == p.step && q.row == p.row then p else q
                    else f.piers ++ [p] }

/-- Spans that take part in a decision row (R172). -/
def Session.takingPart (x : Session) (k i : Nat) : List Nat :=
  (List.range x.gangSize).filter fun j => decide (i < (x.shareOf k j).length)

/-- Closing mode holds for the row. -/
def StepRun.closedAt (r : StepRun) (i : Nat) : Bool := match r.closed with | some c => decide (c ≤ i) | none => false

/-- Piers of a span that await a decision. -/
def Frame.awaiting (f : Frame) (j : Nat) : Nat :=
  (f.piers.filter fun p => p.lanes.any fun l => l.member == j).length

/-- The row that span `j` codes, as its lane A codes it. -/
def Session.rowAt (x : Session) (f : Frame) (j : Nat) (m : Member) : Option RowAt :=
  match f.run[m.step]?, x.steps[m.step]?, x.steps, (x.shareOf m.step j)[m.row]? with
  | some r, some d, d0 :: _, some share =>
    let closed := r.closedAt m.row
    some { k := m.step, member := j, d, d0, g := stepGang x.codec d x.gangSize, rates := r.rates, share,
           qp := if closed then r.rates.qpMax else r.q, closed, base := m.base }
  | _, _, _, _ => none

/-- Lane B of the row: it idles in CQP, in closing mode, and where QB equals Q; otherwise it codes at QB (R171, R184, R186), with
lane A's headers. -/
def Session.laneBOk (x : Session) (f : Frame) (a : RowAt) (r : StepRun) (heads : List (List Byte)) (header : Nat)
    (b : Option Lane) : Bool :=
  let qb := r.qb x.qpUnit
  match b with
  | none => a.closed || x.rcMode == 2 || qb == r.q
  | some l => !a.closed && x.rcMode != 2 && qb != r.q && l.heads == heads && l.header == header && x.laneOk f { a with qp := qb } l

-- The writer ---------------------------------------------------------------------------------------------------

/-- The bits of a byte, the highest first. -/
def bitsOfByte (b : Byte) : List Bool := (List.range 8).map fun i => b.getMsbD i

/-- Streams of a step that a span's row goes on, each with the lane's bits; stream 0 begins with the header units (R147, R152,
R175, R244). -/
def Session.rowStreams (x : Session) (k member row : Nat) (l : Lane) : List (Nat × List Bool) :=
  match x.steps[k]? with
  | none => []
  | some d =>
    let g := stepGang x.codec d x.gangSize
    let t := stepTiles x.codec d g
    let tileRow := (((List.range (tileRows d t 1)).filter fun r => decide (nearStart (tileRows d t 1) d.rows r ≤ row)).length - 1)
    let first := match splitOf x.codec d g with
      | .columns => if x.codec = 0 then tileRow * t + member * (t / max 1 g) else member
      | .whole => tileRow * t
      | _ => member
    l.streams.zipIdx.map fun (b, c) => (first + c, if first + c = 0 then l.heads.flatten.flatMap bitsOfByte ++ b else b)

/-- Tile or slice streams of a step coded by `g` spans (R147, R152, R244). -/
def stepStreams (codec : Nat) (d : StepDesc) (g : Nat) : Nat :=
  match splitOf codec d g with
  | .whole => if codec = 0 then tileCols d 1 * tileRows d (tileCols d 1) 1 else 1
  | .columns => if codec = 0 then tileCols d g * tileRows d (tileCols d g) 1 else g
  | _ => g

/-- Streams of a step of the session. -/
def Session.streamCount (x : Session) (k : Nat) : Nat :=
  match x.steps[k]? with
  | some d => stepStreams x.codec d (stepGang x.codec d x.gangSize)
  | none => 0

/-- Picture row of a span's `i`-th row of a step. -/
def Session.pictureRow (x : Session) (k j i : Nat) : Nat := (((x.shareOf k j)[i]?).map RowShare.row).getD 0

/-- What the writer holds uncommitted of a step (R175): for each stream the kept rows' bits, then lane A's of the rows that
await a decision. -/
def Session.written (x : Session) (f : Frame) (k : Nat) : List (Nat × List Bool) :=
  ((f.rowsOf k).flatMap fun r => x.rowStreams k r.member (x.pictureRow k r.member r.row) r.lane) ++
    (f.piers.filter fun p => p.step == k).flatMap fun p =>
      p.lanes.flatMap fun l => x.rowStreams k l.member (x.pictureRow k l.member p.row) l.a

/-- The writer's bit position in each stream of a step (R175, Table 08-1). -/
def Session.positions (x : Session) (f : Frame) (k : Nat) : List Nat :=
  let w := x.written f k
  (List.range (x.streamCount k)).map fun q => sumL ((w.filter fun e => e.1 == q).map fun e => e.2.length)

/-- Extents that the full stripes of a stream at a bit position lie in (R244). -/
def extentsAt (bits : Nat) : Nat := ceilDiv (bits / 8192) 64

/-- Extents that a stream of some bytes takes once its last stripe is flushed (R243, R244). -/
def extentsOf (bytes : Nat) : Nat := ceilDiv bytes 65536

/-- Extents of a stream of `n` extents whose writer stands at a bit position: a return frees the extents wholly after it, and the
stripe that the position lies in is read back (R245). -/
def extentsKept (n bits : Nat) : Nat := max (extentsAt bits) (min n (ceilDiv bits 524288))

/-- Chains cut or grown to the numbers of extents that are needed, the lowest free ones first (R244, R245; log 78). -/
def chainsTo (free : List Nat) : List (List Nat) → List Nat → List (List Nat)
  | _, [] => []
  | cs, n :: ns =>
    let c := cs.headD []
    let more := n - c.length
    (c.take n ++ free.take more) :: chainsTo (free.drop more) cs.tail ns

/-- Data extents of a flow that no committed frame and no other frame of the session holds. -/
def State.freeExtents (s : State) (f : Frame) (k : Nat) : List Nat :=
  let x := s.flow (flowId f.sess k)
  let used := x.frames.flatMap OutFrame.holding ++
    (s.framesOf f.sess).flatMap fun g => (g.chains.getD k []).flatten
  ((List.range x.dataExtents).map (· + 1)).filter fun e => !used.contains e

/-- The frame with the chains of a step at the writer's positions (R244, R245). -/
def State.chained (s : State) (f : Frame) (k : Nat) (need : List Nat) : Frame :=
  let cs := chainsTo (s.freeExtents f k) (f.chains.getD k []) need
  { f with chains := ((List.range (max (k + 1) f.chains.length)).map fun i => if i = k then cs else f.chains.getD i []) }

/-- The frame with the chains of a step at some bit positions of its streams. -/
def State.chainedTo (s : State) (f : Frame) (k : Nat) (positions : List Nat) : Frame :=
  let have_ := f.chains.getD k []
  s.chained f k (positions.zipIdx.map fun (p, q) => extentsKept (have_.getD q []).length p)

/-- Streams of a step that a frame holds open: the flush releases their buffers (R244). -/
def Session.open_ (x : Session) (f : Frame) (k : Nat) : Nat :=
  if (f.entries.find k).isSome then 0 else ((x.positions f k).filter fun n => n != 0).length

/-- A frame at some bit positions has its space (R244, R248): its streams and those of the session's other frames have a buffer each
of the eight, and every chain the extents of its full stripes. -/
def State.spaceFor (s : State) (f : Frame) (k : Nat) (positions : List Nat) : Bool :=
  let x := s.session f.sess
  let others := sumL (((s.framesOf f.sess).filter fun g => g.id != f.id).map fun g => x.open_ g k)
  let chains := (s.chainedTo f k positions).chains.getD k []
  decide (others + (positions.filter fun n => n != 0).length ≤ 8) &&
    positions.zipIdx.all fun (p, q) => decide (extentsAt p ≤ (chains.getD q []).length)

/-- Record entries that a flow's committed frames and the session's flushed ones hold (R243, R244). -/
def State.entriesHeld (s : State) (i k : Nat) : List Nat :=
  (s.flow (flowId i k)).frames.map OutFrame.entry ++ (s.framesOf i).filterMap fun g => g.entries.find k

/-- The flush of a step (R244): each stream's last stripe is written and the frame record takes the next free entry, where the flow
has extents and an entry for it. -/
def State.flushStep (s : State) (f : Frame) (k : Nat) : Frame :=
  let x := s.session f.sess
  let need := (x.positions f k).map fun p => extentsOf (ceilDiv p 8)
  let g := s.chained f k need
  let held := s.entriesHeld f.sess k
  let free := ((List.range 64).map fun i => ((s.flow (flowId f.sess k)).nextEntry + i) % 64).find? fun e => !held.contains e
  match f.entries.find k, free with
  | none, some e => if (g.chains.getD k []).map List.length == need then { g with entries := f.entries.put k e } else f
  | _, _ => f

/-- Every step of a frame in its tail that can be flushed is flushed (R151, R244). -/
def State.flushFrame (s : State) (f : Frame) : Frame :=
  if f.stage == .tail then (List.range f.run.length).foldl s.flushStep f else f

/-- A step of the frame waits for space in its flow (R248): for the positions it could not go on to, or for its flush. -/
def State.writerWaits (s : State) (f : Frame) (k : Nat) : Bool :=
  match f.stalled.find k with
  | some ps => !s.spaceFor f k ps
  | none => f.stage == .tail && ((s.flushFrame f).entries.find k).isNone

-- Reports and decisions -----------------------------------------------------------------------------------------

/-- The cycle in which span `j` reached the last pier of its part of step 0 (R154). -/
def State.arrive (s : State) (f : Frame) (j : Nat) (m : Member) : Tbl Nat :=
  if m.step = 0 && m.row + 1 == ((s.session f.sess).shareOf 0 j).length then f.arrivals.put j s.cyc else f.arrivals

/-- A span reaches its pier of its next row with what its lanes made (R172): while at most two of its piers await a decision,
or in closing mode (R173), with the row's lines conditioned (R121) and room for the writer (R248). It starts the row after from
lane A's end state. Without that room the answer is false, and the frame with the positions its writer waits for. What the tools
cannot make is no report (log 75). -/
def State.pierAt (s : State) (f : Frame) (j : Nat) (a : Lane) (b : Option Lane) : Option (Bool × Frame) :=
  let x := s.session f.sess
  match f.members[j]? with
  | none => none
  | some m0 =>
    let m := advanceMember x f j 7 m0
    match x.rowAt f j m, f.run[m.step]? with
    | some at_, some r =>
      if (decide (f.awaiting j < 3) || at_.closed) && x.rowReady f m.step at_.share.row && x.laneOk f at_ a &&
          x.laneBOk f at_ r a.heads a.header b then
        let p := f.pier m.step m.row
        let put (pos : List Nat) : Frame := f.setPier { p with lanes := p.lanes ++ [{ member := j, a, b, pos }] }
        let ps := x.positions (put []) m.step
        let h := { put ps with members := f.members.set j ⟨m.step, m.row + 1, x.after at_ a⟩, arrivals := s.arrive f j m }
        if s.spaceFor h m.step ps then some (true, { s.chainedTo h m.step ps with stalled := f.stalled.del m.step })
        else some (false, { f with stalled := f.stalled.put m.step ps })
      else none
    | _, _ => none

/-- What row `i` of span `j`'s part of a step starts from, after the rows kept so far (R174, R176). -/
def Session.baseOf (x : Session) (f : Frame) (k j i : Nat) : RowStart :=
  match i with
  | 0 => RowStart.fresh
  | i + 1 =>
    match f.keptRows.find? (fun e => e.step == k && e.row == i && e.member == j), x.rowAt f j ⟨k, i, RowStart.fresh⟩ with
    | some e, some a => x.after a e.lane
    | _, _ => RowStart.fresh

/-- The squash of R174: every span goes back to row `i` of step `k`, if it has one, from the kept end state of the pier before
it; what it did beyond is gone. -/
def Session.squash (x : Session) (f : Frame) (k i : Nat) : Frame :=
  let back (j : Nat) : Bool := decide (i < (x.shareOf k j).length)
  { f with
    members := f.members.zipIdx.map fun (m, j) => if back j && decide (k ≤ m.step) then ⟨k, i, x.baseOf f k j i⟩ else m,
    piers := ((f.piers.map fun p =>
      if (p.step == k && decide (i ≤ p.row)) || decide (k < p.step) then
        { p with lanes := p.lanes.filter fun l => !back l.member }
      else p).filter fun p => !p.lanes.isEmpty) }

/-- The frame after step `k` has become `r` by the decision of row `i` (R172, R174, R175): the row's lanes are kept with the
lane's QP, or rolled back, its pier store is free, and a squash follows where the next inputs change. -/
def Session.decided (x : Session) (f : Frame) (k i : Nat) (r : StepRun) (keepB squash : Bool) (qp : Nat) (closed : Bool) : Frame :=
  let rows (pos : List Nat) := if i < r.row then (f.pier k i).lanes.map fun l =>
      { step := k, row := i, member := l.member, qp, closed, lane := if keepB then l.b.getD l.a else l.a, pos : KeptRow }
    else []
  let pos := x.positions { f with keptRows := f.keptRows ++ rows [], piers := [] } k
  let g := { f with run := f.run.set k r, keptRows := f.keptRows ++ rows pos,
                    piers := f.piers.filter fun p => !(p.step == k && p.row == i) }
  if squash then x.squash g k r.row else g

/-- A decision row that every span taking part has reached, as the gang decides it: the frame after it, and the step (R172,
R185, R186). -/
def Session.decideStep (x : Session) (f : Frame) (k : Nat) : Option (Frame × Nat) :=
  match f.run[k]? with
  | none => none
  | some r =>
    let i := r.row
    let p := f.pier k i
    let part := x.takingPart k i
    let bA := sumL (p.lanes.map fun l => l.a.bits)
    let bB := sumL (p.lanes.map fun l => match l.b with | some b => b.bits | none => 0)
    if r.finished || part.isEmpty || !part.all (fun j => p.lanes.any fun l => l.member == j) then none
    else if r.closedAt i then some (x.decided f k i (r.closedRow bA) false false r.rates.qpMax true, k)
    else
      let (r', sq) := r.decideRow x.rcMode x.qpUnit bA bB
      let kb := x.rcMode != 2 && r.keepsB x.rcMode x.qpUnit bA bB
      some (x.decided f k i r' kb sq (if kb then r.qb x.qpUnit else r.q) false, k)

/-- Every decision that stands is taken (R172), and the writer follows it (R175, R245). A frame that was to end at its next
pier ends at the first (R179); after the last the gang is released and the frame enters its tail (R151, R117). -/
def State.settlePiers (fuel : Nat) (s : State) (f : Frame) : State :=
  match fuel with
  | 0 => s.setFrame f
  | fuel + 1 =>
    let x := s.session f.sess
    match (List.range f.run.length).findSome? fun k => x.decideStep f k with
    | none => s.setFrame f
    | some (h, k) =>
      let g := s.chainedTo h k (x.positions h k)
      match g.abortAt with
      | some st => (s.setFrame g).endEmpty g st
      | none =>
        if g.run.all StepRun.finished then
          let t := s.flushFrame { g with stage := .tail, lastPier := s.now }
          (s.setFrame t).releaseGang t
        else State.settlePiers fuel s g

/-- Picture rows of a step that the in-loop filters have finished (R151): a row once it and the row after it have passed their
piers on every span. -/
def Session.filteredRows (x : Session) (f : Frame) (k : Nat) : Nat :=
  let rows := match x.steps[k]? with | some d => d.rows | none => 0
  let passed (p : Nat) : Bool := (List.range x.gangSize).all fun j => ((x.shareOf k j).zipIdx).all fun (sh, i) =>
    sh.row != p || match f.run[k]? with | some r => decide (i < r.row) | none => false
  ((List.range rows).takeWhile fun p => passed p && (p + 1 == rows || passed (p + 1))).length

-- Streams and packets --------------------------------------------------------------------------------------------

/-- Byte lengths of a frame's streams: one tile or slice unit each, stream 0 with the header units before its own
(R147, R244). -/
def streamBytes (n : Nat) (units : List (List Byte)) : List Nat :=
  let head := units.length + 1 - n
  sumL ((units.take head).map List.length) :: (units.drop head).map List.length

/-- Fragments of a unit longer than PAYLOAD_MAX, each with its FRAG (R250, Table 11-1). -/
def fragments (max : Nat) (u : List Byte) : List (Nat × List Byte) :=
  let n := ceilDiv u.length max
  (List.range n).map fun i => (if i = 0 then 1 else if i + 1 = n then 3 else 2, slice u (i * max) max)

/-- The packets of a frame (R250); `acc` is the packet of whole units that is filling. -/
def packetise (max : Nat) (acc : List Byte) : List (List Byte) → List (Nat × List Byte)
  | [] => if acc.isEmpty then [] else [(0, acc)]
  | u :: r =>
    let flush := if acc.isEmpty then [] else [(0, acc)]
    if u.length ≤ max then
      if acc.length + u.length ≤ max then packetise max (acc ++ u) r else flush ++ packetise max u r
    else flush ++ fragments max u ++ packetise max [] r

/-- Bits as bytes, the first bit highest, the last byte filled with zeros. -/
def bytesOfBits : Nat → List Bool → List Byte
  | _, [] => []
  | 0, _ => []
  | n + 1, bs =>
    let v := ((List.range 8).map fun i => if bs.getD i false then 2 ^ (7 - i) else 0).foldl (· + ·) 0
    BitVec.ofNat 8 v :: bytesOfBits n (bs.drop 8)

/-- The bytes of each stream of a step as the writer made them from the kept rows (R175). -/
def Session.streamsOf (x : Session) (f : Frame) (k : Nat) : List (List Byte) :=
  let w := x.written f k
  (List.range (x.streamCount k)).map fun q =>
    let bs := (w.filter fun e => e.1 == q).flatMap fun e => e.2
    bytesOfBits (ceilDiv bs.length 8) bs

/-- Place of a header unit among those of its frame (R147). -/
def headRank : HeadUnit → Nat
  | .delimiter => 0
  | .sequenceHeader => 1
  | .parameterSet => 1
  | .mastering => 2
  | .contentLight => 2
  | .other => 2
  | .frameHeader => 3

/-- How often a kind of header unit stands in a frame. -/
def countOf (u : HeadUnit) (hs : List HeadUnit) : Nat := (hs.filter (· == u)).length

/-- The header units that the writer made of a step before its tiles or slices (R147). -/
def Frame.headUnits (f : Frame) (k : Nat) : List (List Byte) :=
  match (f.rowsOf k).find? fun r => r.member == 0 && r.row == 0 with
  | some r => r.lane.heads
  | none => []

/-- The header units of a frame are those that R147 and R167 ask for, in their order. Of a hidden picture's frames the spec
does not say which begins a temporal unit (log 79). -/
def Session.headsOk (x : Session) (f : Frame) (hs : List HeadUnit) : Bool :=
  let hdr := !x.hdr.isEmpty && (f.intra || bit (x.tool 2) 30)
  let metadata := if hdr then 1 else 0
  decide (hs.Pairwise fun a b => headRank a ≤ headRank b) && countOf .mastering hs == metadata &&
    countOf .contentLight hs == metadata &&
    if x.codec = 0 then
      countOf .sequenceHeader hs == (if f.intra then 1 else 0) && countOf .parameterSet hs == 0 &&
        countOf .frameHeader hs == 1 && decide (countOf .delimiter hs ≤ 1) && (x.bframes != 0 || countOf .delimiter hs == 1)
    else
      (!f.intra || decide (1 ≤ countOf .parameterSet hs)) && countOf .sequenceHeader hs == 0 && countOf .frameHeader hs == 0 &&
        countOf .delimiter hs == (if bit (x.tool 2) 31 then 1 else 0)

/-- What one step carries to its crossing has the form the writer gives it (R147, R244): at most 8 streams and 224 units, the
header units, then one unit a stream, each in the form of its kind, whose bytes are the kept ones; and the reconstruction has the
step's size. -/
def Session.contentOk (x : Session) (f : Frame) (k : Nat) (d : StepDesc) (c : StepContent) : Bool :=
  let n := x.streamCount k
  let head := c.units.length + 1 - n
  decide (1 ≤ n) && decide (n ≤ 8) && decide (n ≤ c.units.length) && decide (c.units.length ≤ 224) &&
    c.units.all (fun u => !u.isEmpty) && c.heads.length + n == c.units.length && x.headsOk f c.heads &&
    c.units.take c.heads.length == f.headUnits k &&
    ((c.heads.zip c.units).all fun (h, u) => unitOk x.codec (some h) u && metadataOk x.codec x.hdr h u) &&
    (c.units.drop c.heads.length).all (unitOk x.codec none) &&
    (c.units.take head).flatten :: c.units.drop head == x.streamsOf f k && samplesFit x.chroma d.codedW d.codedH c.recon

/-- Tools beyond a codec's basic ones that the session's bitstream signals as enabled (R144, Table 07-2, Table 07-7); none of those
marked "not used" is ever among them. -/
def Session.toolsOn (x : Session) : List Tool :=
  let has (b : Bool) (t : Tool) : List Tool := if b then [t] else []
  has (x.codec == 0 && bit (x.tool 0) 30) .palette ++ has ((x.codec == 0 || x.codec == 2) && bit (x.tool 0) 29) .blockCopy ++
    has (x.codec == 2 && bit (x.tool 0) 28) .affine ++ has (x.codec == 0 && bit (x.tool 0) 28) .warpedMotion ++
    has (x.codec == 2 && !bit (x.tool 1) 25) .mts ++ has (x.codec == 2 && !bit (x.tool 1) 26) .lfnst ++
    has (x.codec == 1) .transformSkip ++ has (x.codec == 2) .crossComponentModel ++ has (x.codec == 0) .chromaFromLuma ++
    has (x.codec == 0 && x.latency != 0 && x.bframes != 0) .compound

/-- What a step's bitstream signals. -/
def Session.signals (x : Session) (f : Frame) (k : Nat) (d : StepDesc) : Signals :=
  let g := stepGang x.codec d x.gangSize
  let split := splitOf x.codec d g
  let t := stepTiles x.codec d g
  let copies := x.codec == 0 && (f.rowsOf k).any fun r => r.lane.blocks.any fun b =>
    match b.coding with | .blockCopy _ _ => true | _ => false
  let signed (lo : Nat) : Int := ((x.tool 1).extractLsb' lo 4).toInt
  { key := f.intra, matrix := x.inMatrix, transfer := x.inTransfer, full := bit (x.input 0) 22, sitedLeft := x.chroma == 0,
    dispW := d.dispW, dispH := d.dispH, timing := if bit (x.tool 2) 29 then some (x.fpsNum, x.fpsDen) else none,
    tileCols := if x.codec = 0 then t else if split = .columns then g else 1,
    tileRows := if split = .rows then g else if x.codec = 0 then tileRows d t 1 else 1,
    slices := if x.codec = 0 then 0 else x.streamCount k, wpp := x.wpp, across := decide (1 < g),
    gaps := x.codec == 3 && x.drop && decide (1 < x.inflight), intrabc := copies,
    deblocking := !copies && !bit (x.tool 1) 31,
    sao := (x.codec == 1 || x.codec == 2) && !bit (x.tool 1) 30, cdef := x.codec == 0 && !copies && !bit (x.tool 1) 29,
    restoration := x.codec == 0 && !copies && !bit (x.tool 1) 28, alf := x.codec == 2 && !bit (x.tool 1) 27,
    betaOffset := if x.codec = 0 then 0 else signed 20, tcOffset := if x.codec = 0 then 0 else signed 16,
    cbOffset := signed 12 * x.qpUnit, crOffset := signed 8 * x.qpUnit, tools := x.toolsOn }

-- The full crossing ------------------------------------------------------------------------------------------------

/-- FRAME_TYPE of the statistics (Table 07-10, log 32). -/
def Session.frameType (x : Session) (f : Frame) : Nat :=
  if f.intra then 0
  else if x.bframes = 0 || f.top = 0 then 1
  else if x.codec = 0 then (if f.layer = f.top then 2 else 3)
  else if f.layer = 0 then 1 else 2

/-- A span waited at the gang's barrier: two of them reached it in different cycles (R154, R170). It counts at step 0's last pier
also for a session of one step, which has no step to start; R170 does not say (DESIGN CHOICE, log 98). -/
def Frame.barrierWaited (f : Frame) : Bool :=
  match f.arrivals with
  | [] => false
  | (_, c) :: r => r.any fun (e : Nat × Nat) => e.2 != c

/-- The statistics record of a step (Table 07-10). -/
def Session.statRecord (x : Session) (f : Frame) (k seq bits : Nat) (d : StepDesc) (r : StepRun) (recon : Samples) : List Word :=
  let st := x.stepStats f k (x.steps.headD d) d r.rates recon
  let w (i : Nat) := wd st i
  [loW seq, at_ 28 (x.frameType f) ||| at_ 24 f.intraCause ||| at_ 0 (f.num % 2 ^ 24), loW bits, w 0, w 1, w 2, w 3,
   loW (if k = 0 then f.hintsOk else 0), loW (if k = 0 then f.hintsBad else 0), w 4, w 5,
   at_ 31 (b2n f.sceneCut) ||| at_ 30 (b2n f.barrierWaited), w 6, 0, 0, 0]

/-- The frame's picture stays out of the visible sets (R203): the top layer of a pyramid, where an AV1 frame has
refresh_frame_flags = 0 (log 80). -/
def Session.nonReference (x : Session) (f : Frame) : Bool :=
  !f.intra && x.bframes != 0 && f.top != 0 && f.layer == f.top

/-- A later frame of the session's pattern predicts from the picture (R203): the running pyramid names it, or it is the last
anchor, which the next pyramid starts from. -/
def Session.stillNamed (x : Session) (z : Slot) : Bool :=
  x.bframes != 0 && (x.anchor == some z.encSeq || x.plan.any fun e => e.refs.contains z.encSeq)

/-- A step's visible set after a full crossing (R203); `keep` tells the pictures that a later frame of the pattern needs. -/
def visibleAfter (refs : Nat) (intra : Bool) (keep : Slot → Bool) (new : Slot) (xs : List Slot) : List Slot :=
  if intra then [new]
  else
    let ys := xs ++ [new]
    if ys.length ≤ refs then ys
    else
      let cand := match ys.filter fun z => !keep z with | [] => ys | l => l
      let low := cand.foldl (fun m z => min m z.num) ((cand.headD new).num)
      ys.eraseP fun z => z.num == low

/-- The fields of a snapshot record that only a full crossing writes (Table 02-2). -/
def recordFull (r : List Word) (entered : Bool) (lastQp bits packets : Nat) (late concealed closed : Bool) : List Word :=
  let total := pair64 (wd r 10) (wd r 9) + bits
  let r1 := if entered then setWd r 4 (wd r 4 + 1) else r
  let r2 := setWd (setWd r1 5 (setFld (wd r1 5) 0 8 lastQp)) 8 (loW bits)
  let r3 := setWd (setWd (setWd r2 9 (loW total)) 10 (hiW total)) 11 (wd r2 11 + 1)
  let r4 := if late then setWd r3 12 (setFld (wd r3 12) 16 16 (satInc 16 (fld (wd r3 12) 16 16))) else r3
  let r5 := if concealed then setWd r4 13 (setFld (wd r4 13) 16 16 (satInc 16 (fld (wd r4 13) 16 16))) else r4
  let r6 := if closed then setWd r5 13 (setFld (wd r5 13) 0 16 (satInc 16 (fld (wd r5 13) 0 16))) else r5
  setWd r6 14 (wd r6 14 + loW packets)

/-- Session `x` with step `k`'s record, statistics, rate control and visible set after a full crossing. -/
def Session.crossStep (x : Session) (f : Frame) (k : Nat) (d : StepDesc) (r : StepRun) (c : StepContent)
    (packets now status tag : Nat) (late : Bool) : Session :=
  let m := (x.mem k).afterFull r x.rcMode x.qpUnit f.intra f.layer
  let enters := !x.nonReference f
  let rec1 := recordAll (x.snapRec k) true m now status tag
  let rec2 := recordFull rec1 enters r.meanQp r.s packets late false r.closed.isSome
  let new := Slot.ofPicture (f.shadow.getD k 0) f.num 0 0 f.encSeq x.bitDepth x.chroma d.codedW d.codedH (k == 0) c.recon
  { x with snap := x.snap.put k rec2, stepMem := x.stepMem.put k m,
           stat := x.stat.put k (x.statRecord f k (wd rec2 0).toNat r.s d r c.recon),
           vis := if enters then x.vis.put k (visibleAfter x.refs f.intra x.stillNamed new (x.vis.get k [])) else x.vis }

/-- V1 of a frame's completion (R187). -/
def closedWord (run : List StepRun) : Word :=
  match run.zipIdx.findSome? fun (r, k) => r.closed.map fun c => (k, c) with
  | some (k, c) => at_ 16 k ||| at_ 0 (c % 65536)
  | none => allW

/-- The frame crosses after its deadline (R106). -/
def State.isLate (s : State) (f : Frame) : Bool := f.deadline != 0 && decide (f.deadline < s.now)

/-- Session fields that every full crossing moves. -/
def Session.crossedFullNow (x : Session) (f : Frame) : Session :=
  { x with crossings := x.crossings + 1, drains := x.drains + 1, crossedFull := true, nextNum := f.num + 1,
           sinceIntra := if f.intra then 0 else x.sinceIntra + 1 }

/-- A step's committed frame as its flow holds it (R244, R246). -/
def State.outFrame (s : State) (f : Frame) (k : Nat) (d : StepDesc) (c : StepContent) : OutFrame :=
  let x := s.session f.sess
  let y := s.flow (flowId f.sess k)
  let ps := packetise (imgPayload y.image) [] c.units
  let streams := streamBytes (x.streamCount k) c.units
  { num := f.num, pts := f.pts, units := c.units, packets := ps, next := 0, total := ps.length, streams,
    chains := f.chains.getD k [], entry := f.entries.get k 0, since := s.cyc, signals := x.signals f k d,
    poison := [] }

/-- Every step of the frame is filtered and flushed and can be committed now. -/
def State.crossReady (s : State) (f : Frame) (cs : List StepContent) : Bool :=
  let x := s.session f.sess
  cs.length == x.steps.length && f.run.length == x.steps.length &&
    ((x.steps.zip cs).zipIdx).all fun ((d, c), k) =>
      x.filteredRows f k == d.rows && x.contentOk f k d c && (f.entries.find k).isSome

/-- Frames of a session cross in fetch order, those of a pyramid in coding order (R90, R202, log 32). -/
def State.crossesNext (s : State) (f : Frame) : Bool :=
  let x := s.session f.sess
  !(s.framesOf f.sess).any fun g =>
    if x.isEnc && x.bframes != 0 then g.isGranted && decide (g.num < f.num) else decide (g.id < f.id)

/-- The full crossing of an encode frame (R23–R27): bitstream, references, rate control, statistics and record of
every step, then the completion. -/
def State.crossEncode (s : State) (f : Frame) (cs : List StepContent) : State :=
  let i := f.sess
  let x := (s.session i).keepBank s.cyc
  let late := s.isLate f
  let status := if late then 2 else if f.run.any (fun r => r.closed.isSome) then 3 else 0
  let tag := s.frameTag f
  let steps := ((x.steps.zip (f.run.zip cs)).zipIdx).map fun ((d, (r, c)), k) => (k, d, r, c, s.outFrame f k d c)
  let s1 := steps.foldl (fun st (k, _, _, _, o) =>
    let y := st.flow (flowId i k)
    st.setFlow (flowId i k) { y with frames := y.frames ++ [o], nextEntry := (o.entry + 1) % 64 }) s
  let x1 := steps.foldl (fun z (k, d, r, c, o) => z.crossStep f k d r c o.total s.now status tag late) x
  let s2 := s1.setSession i (x1.crossedFullNow f)
  let bits := sumL (f.run.map (·.s))
  let qp := match f.run with | r :: _ => r.meanQp | [] => 0
  let s3 := (s2.dropFrame f).frameDone f status
    [loW bits, closedWord f.run, at_ 8 (f.num % 2 ^ 24) ||| at_ 0 qp, loW (f.lastPier - f.firstTick)]
  let s4 := if late then s3.schedReport f 0x0A01 else s3
  s4.settleDrain i

-- WRITER_WAIT --------------------------------------------------------------------------------------------------------

/-- The frame that a flow's writer is writing: the last granted frame of the session that has not crossed. -/
def State.writing (s : State) (i : Nat) : Option Frame :=
  ((s.framesOf i).filter fun f => f.stage == .granted || f.stage == .tail).getLast?

/-- The first frame of a session whose writer waits on a step. -/
def State.waitingWriter (s : State) (i k : Nat) : Option Frame :=
  (s.framesOf i).find? fun f => !f.decode && (f.stage == .granted || f.stage == .tail) &&
    decide (k < (s.session i).steps.length) && s.writerWaits f k

/-- WRITER_WAIT (R248): the wait is counted; where no committed byte and no other frame's flush can release space,
the frame ends ABORTED. A frame in its tail is in its writer's flush, which ends with the crossing (R151). -/
def execWriterWait (flow : Fin 4096) (s : State) : Res :=
  let k := flow.val
  match s.waitingWriter (k / 8) (k % 8) with
  | none => .next s
  | some f =>
    if s.inGf then .next s
    else
      let x := s.flow k
      let s1 := s.setFlow k { x with waits := satInc 16 x.waits }
      let other := (s.framesOf f.sess).any fun g => g.stage == .tail && g.id != f.id
      if x.unsent = 0 && !other then
        let s2 := s1.setFlow k { s1.flow k with overflows := satInc 16 x.overflows }
        .next (s2.endEmpty f 0x20)
      else .next s1

end Sys2Proof.Machine
end

