-- ==== Sys2Proof/Machine/Sessions.lean ====
section
/-! DEFINITION. The session packets: SESS_CONFIG (R94), SESS_ENABLE and its consistency check (R96), SESS_DISABLE
(R97, R179, R211) and SESS_SNAPSHOT (R36). -/

namespace Sys2Proof.Machine

/-- Bits of descriptor words 0–31 that Table 05-1 gives a field. Reserved bits within INPUT and TOOL_CTRL are no reserved fields of this
table: check 9 judges them (DESIGN CHOICE, log 91). -/
def configMasks : List Word :=
  [allW, allW, 0xFFFFFFC0, allW, 0xFFE0FFFF, allW, 0xFFFFFFF0, allW, allW, allW, allW, allW, allW, allW, allW, allW] ++
    [allW, allW, allW, allW, 0xFF, 0, 0, 0, 0, 0, 0, 0, 0, 0, 0, 0]

/-- The descriptor that SESS_CONFIG names, EN and OWNER_FID bits as 0 (R93). -/
def State.configWords (s : State) (p : Packet) : List Word :=
  let w := s.loadWs (s.refAddr (p.p 0) (p.p 1)) 32
  w.set 0 (wd w 0 &&& 0x7FFFFF80)

/-- A change that an enabled session takes: WEIGHT and PRIO only (R94). -/
def sameButWeight (old new : List Word) : Bool :=
  (List.range 32).all fun i => (wd old i ^^^ wd new i) &&& (if i = 4 then 0x001FFFFF else allW) == 0

/-- SESS_CONFIG's RELEASE. -/
def Packet.releases (p : Packet) : Bool := bit (p.p 2) 0

/-- The checks of SESS_CONFIG (R94). -/
def State.configChecks (s : State) (p : Packet) : List (Option Refuse) :=
  let x := s.session p.sessField
  if p.releases then [need (!x.en) ⟨0x17, 0x0707, 0⟩]
  else
    let w := s.configWords p
    [s.checkRef p.fid (p.p 0) (p.p 1) 256 0,
     need ((w.zip configMasks).all fun (v, m) => v &&& ~~~m == 0) (badParam 0x0709 0),
     need (!x.en || sameButWeight x.cfg w) ⟨0x17, 0x0707, 0⟩]

/-- A flow of a released session: its unsent packets are discarded and its image goes (R94, R261). -/
def State.releaseFlow (s : State) (f : Nat) : State :=
  let s1 := (s.discardFlow f).unpinRing f
  { s1 with flows := s1.flows.del f }

/-- RELEASE of a disabled session: the entry, its flows, steps and reservations go (R94, R201). -/
def State.releaseSession (s : State) (i : Nat) : State :=
  let s1 := (List.range 8).foldl (fun st k => st.releaseFlow (flowId i k)) s
  { s1 with sess := s1.sess.del i }

/-- SESS_CONFIG (R94). -/
def execSessConfig (c : Ctx) (s : State) : Res :=
  .next (s.atTable c 0x10 s.configChecks fun p =>
    let i := p.sessField
    let x := s.session i
    if p.releases then (s.releaseSession i).done p [0, 0, 0, 0]
    else
      let y := { x with claimed := true, owner := if x.claimed then x.owner else p.fid, cfg := s.configWords p }
      let z := if x.en then y
        else { y with everEnabled := false, snap := [], stat := [], spanTicks := if x.expTicks = 0 then 0 else y.c s.clk.cclk }
      (s.setSession i z).done p [0, 0, 0, 0])

/-- SESS_ENABLE (R96): EN is set and the check runs. -/
def execSessEnable (c : Ctx) (s : State) : Res :=
  .next (s.atTable c 0x11 (fun p => [need (!(s.session p.sessField).en) ⟨0x17, 0x0707, 0⟩]) fun p =>
    (s.leaveCtx c p .checking).setSession p.sessField { s.session p.sessField with en := true, checkBy := some p.id })

/-- A session as an accepted check leaves it (R35, R96, R182, R201). -/
def Session.accept (x : Session) (cclk : Nat) (a : Admitted) (hdr : List Word) : Session :=
  { x with
    checkBy := none, everEnabled := true, before := none, expTicks := x.e cclk, spanTicks := x.c cclk, demand := x.d, overcommitted := false,
    home := some (x.gangLog, a.home), vb := a.vb, gallery := a.gallery, copies := a.copies, flights := a.flights, hdr,
    snap := (x.steps.zipIdx).map fun (d, k) => (k, (zeros 16).set 5 (if x.isEnc then at_ 8 d.qpInit else 0)),
    stepMem := [], vis := [], hint := none, nextNum := 0, plan := [], anchor := none, sinceIntra := 0, nextIntra := false, crossedFull := false, analyses := [], enabledSteps := x.steps, costs := [],
    epoch := 0, order := 0, decoded := 0, recovery := [], seqSeen := false, aborts := 0, drains := 0 }

/-- A flow as an accepted SESS_ENABLE starts it (R257, R259, R260). -/
def State.startFlow (s : State) (f : Nat) : State :=
  let x := s.flow f
  (s.setFlow f { x with prod := 0, phase := true, tokens := x.cap }).runFlow f

/-- Slack at admission: 0 when the session has no deadlines. -/
def Session.slack (x : Session) (cclk : Nat) : Nat := if x.dlBudget = 0 then 0 else x.dlBudget - x.e cclk

/-- CONSISTENCY_CHECK (R96): the outcome of a SESS_ENABLE whose check runs. -/
def execConsistencyCheck (sess : Fin 512) (s : State) : Res :=
  let i := sess.val
  let x := s.session i
  match x.checkBy.bind s.packet? with
  | none => .next s
  | some p =>
    if s.inGf then .next s
    else match s.consistency i x with
      | .inl (st, r) =>
        .next ((s.setSession i { x with en := false, checkBy := none, lastReason := r }).refuse p ⟨st, r, 0⟩)
      | .inr a =>
        let s1 := s.setSession i (x.accept s.clk.cclk a (s.hdrCopy x))
        let s2 := if x.isEnc then (List.range x.steps.length).foldl (fun st k => st.startFlow (flowId i k)) s1 else s1
        .next (s2.done p [loW (x.e s.clk.cclk), loW x.gangSize, loW (x.slack s.clk.cclk), 0])

/-- SESS_DISABLE (R97, R179, R211): EN clears; the session's frames cross, or end at their next pier, and then
the packet completes. -/
def execSessDisable (c : Ctx) (s : State) : Res :=
  .next (s.atTable c 0x12 (fun _ => []) fun p =>
    let i := p.sessField
    let x := s.session i
    if !x.en then s.done p [0, 0, 0, 0]
    else
      let s1 := (s.leaveCtx c p .draining).disableSession i fun x => { x with aborts := 0, drains := 0 }
      let s2 := if bit (p.p 0) 0 then s1 else s1.endSessionFrames i 0x20
      s2.settleDrain i)

/-- The records that SESS_SNAPSHOT writes, one of 16 words per step (R36). -/
def Session.snapshot (x : Session) : List Word :=
  (List.range x.steps.length).flatMap fun k => if x.everEnabled then x.snapRec k else zeros 16

/-- SESS_SNAPSHOT (R36). -/
def execSessSnapshot (c : Ctx) (s : State) : Res :=
  .next (s.atKeystone c 0x13
    (fun p => [s.checkRef p.fid (p.p 0) (p.p 1) (64 * (s.session p.sessField).steps.length) 0]) fun p =>
    let x := s.session p.sessField
    let w := (x.shown s.cyc).snapshot
    (s.store (s.refAddr (p.p 0) (p.p 1)) (bytesOfWords w)).done p [wd w 0, loW x.steps.length, 0, 0])

end Sys2Proof.Machine
end

