-- ==== Sys2Proof/Machine/Pictures.lean ====
section
/-! DEFINITION. Decode pictures (R213–R240): the checks of DEC_DATA and DEC_BURST, row ends with their damage,
the burst gang, and the crossing of a picture. What the bitstream says comes with the commands: parsing and the reconstruction
of undamaged units are the coding standards' own. -/

namespace Sys2Proof.Machine

-- Operands -----------------------------------------------------------------------------------------------------

/-- A unit to decode, as DEC_DATA's parameters or an entry of a burst's unit list name it (R220, Table 10-6). -/
structure UnitRef where
  host : Bool
  srcA : Word
  srcB : Word
  length : Word
  map : Word
  mapOff : Word
deriving DecidableEq, Repr

/-- The words at fault of a unit's checks: source, length, key slot, protection record. -/
structure UnitWords where
  src : Nat
  len : Nat
  key : Nat
  map : Nat
deriving DecidableEq, Repr

/-- A protection record obeys R225 for a unit of `n` bytes; `h`, `off` is its reference. -/
def State.recordObeys (s : State) (h off : Word) (n : Nat) : Bool :=
  let a := s.refAddr h off
  let w := s.loadWs a 8
  let scheme := fld (wd w 0) 24 8
  let crypt := fld (wd w 0) 20 4
  let skip := fld (wd w 0) 16 4
  let count := fld (wd w 0) 0 16
  let iv := fld (wd w 1) 0 8
  let entries := (List.range count).map fun e => (s.loadW (a + 32 + 8 * e), s.loadW (a + 36 + 8 * e))
  fld (wd w 1) 8 24 == 0 && wd w 6 == 0 && wd w 7 == 0 && decide (scheme ≤ 1) &&
    (if scheme = 0 then (iv == 8 || iv == 16) && crypt == 0 && skip == 0 && (iv == 16 || (wd w 4 == 0 && wd w 5 == 0))
     else iv == 16 && crypt != 0) &&
    within 1 4096 count && rangeInside h off.toNat (32 + 8 * count) &&
    entries.all (fun e => fld e.1 16 16 == 0) &&
    sumL (entries.map fun e => fld e.1 0 16 + e.2.toNat) == n

/-- Items 1 to 3 of R220 on a unit, against a key slot. -/
def State.unitRefusal (s : State) (fid : Nat) (u : UnitRef) (key : Nat) (v : UnitWords) : Option Refuse :=
  firstRefusal
    [(if u.host then none else s.checkRef fid u.srcA u.srcB u.length.toNat v.src),
     need (within 1 16777216 u.length.toNat) (badParam 0x0301 v.len),
     (if key = 0xFF then none else (s.keyReason key fid 1).map fun r => ⟨0x16, r, v.key⟩),
     need (key == 0xFF || u.map != 0) ⟨0x16, 0x0604, v.key⟩,
     (if u.map = 0 then none
      else firstRefusal
        [s.checkHandle fid u.map v.map, need (u.mapOff.toNat % 32 == 0) (badParam 0x0305 v.map),
         need (rangeInside u.map u.mapOff.toNat 32) (badParam 0x0301 v.map),
         need (s.recordObeys u.map u.mapOff u.length.toNat) (badParam 0x0604 v.map)])]

/-- Buffers that a unit names. -/
def UnitRef.bufs (u : UnitRef) : List Nat :=
  (if u.host then [] else [handleKey u.srcA]) ++ (if u.map = 0 then [] else [handleKey u.map])

-- Output descriptors -------------------------------------------------------------------------------------------

/-- A band of a plane: handle, lines, offset in the buffer (Table 10-4). -/
structure Band where
  handle : Word
  lines : Nat
  off : Nat
deriving DecidableEq, Repr

/-- The bands of plane `p` of an output descriptor; a zero handle ends the list. -/
def descBands (d : List Word) (p : Nat) : List Band :=
  (((List.range 8).map fun b => (wd d (16 + 16 * p + 2 * b), wd d (17 + 16 * p + 2 * b))).takeWhile fun x => x.1 != 0).map
    fun x => { handle := x.1, lines := fld x.2 16 16, off := fld x.2 0 16 * 4096 }

/-- Bytes of a sample. -/
def Session.sampleBytes (x : Session) : Nat := if x.bitDepth = 10 then 2 else 1

/-- Lines of plane `p` of a picture `h` lines high (R221). -/
def Session.planeLines (x : Session) (p h : Nat) : Nat :=
  if p = 0 then h else if p = 1 then (if x.chroma = 0 then h / 2 else h) else if x.chroma = 2 then h else 0

/-- PITCH of an output descriptor. -/
def descPitch (d : List Word) : Nat := (wd d 12).toNat

/-- The host fields of an output descriptor (R221); every refusal names word `v`. -/
def State.outRefusal (s : State) (x : Session) (fid : Nat) (d : List Word) (v : Nat) : Option Refuse :=
  let band (b : Band) : List (Option Refuse) :=
    [s.checkHandle fid b.handle v, need (decide (1 ≤ b.lines)) (badParam 0x070A v),
     need (rangeInside b.handle b.off (descPitch d * b.lines)) (badParam 0x0301 v)]
  firstRefusal
    ([need (descPitch d % 256 == 0 && decide (x.width * x.sampleBytes ≤ descPitch d)) (badParam 0x0107 v),
      need (allZero ((d.drop 13).take 3)) (badParam 0x0709 v)] ++
     ([0, 1, 2].flatMap fun p => (descBands d p).flatMap band) ++
     [need (x.chroma == 2 || (descBands d 2).isEmpty) (badParam 0x070A v)] ++
     [0, 1, 2].map fun p =>
       need (decide (x.planeLines p x.height ≤ sumL ((descBands d p).map (·.lines)))) (badParam 0x0301 v))

/-- Item 4 of R220: the descriptor at a reference. -/
def State.descRefusal (s : State) (x : Session) (fid : Nat) (h off : Word) (v : Nat) : Option Refuse :=
  firstRefusal
    [s.checkHandle fid h v, need (off.toNat % 64 == 0) (badParam 0x0305 v),
     need (rangeInside h off.toNat 256) (badParam 0x0301 v),
     s.outRefusal x fid (s.loadWs (s.refAddr h off) 64) v]

/-- Buffers that an output descriptor names, its own first. -/
def descBufs (h : Word) (d : List Word) : List Nat :=
  handleKey h :: [0, 1, 2].flatMap fun p => (descBands d p).map fun b => handleKey b.handle

-- DEC_DATA -----------------------------------------------------------------------------------------------------

/-- The unit of a DEC_DATA. -/
def Packet.unitRef (p : Packet) : UnitRef :=
  { host := bit (p.p 3) 31, srcA := p.p 0, srcB := p.p 1, length := p.p 2, map := p.p 6, mapOff := p.p 7 }

/-- The checks of DEC_DATA (R220). -/
def State.decDataChecks (s : State) (p : Packet) : List (Option Refuse) :=
  let x := s.session p.sessField
  s.kindChecks p false ++
    [s.unitRefusal p.fid p.unitRef (fld (p.p 3) 0 8) ⟨0, 2, 3, 6⟩, s.descRefusal x p.fid (p.p 4) (p.p 5) 4]

/-- The item starts a coded picture of the base layer (Table 10-2). -/
def startsPicture (e : UnitItem) : Bool := e.base && (e.part == .picture || e.part == .intraPicture)

/-- The items of a unit up to its second picture (R219). -/
def firstPicture (seen : Bool) : List UnitItem → List UnitItem
  | [] => []
  | e :: r => if startsPicture e then (if seen then [] else e :: firstPicture true r) else e :: firstPicture seen r

/-- The unit holds a coded picture of the base layer (R219, Table 10-2). -/
def holdsCoded (items : List UnitItem) : Bool := items.any startsPicture

/-- Key of a parameter set or header among a session's. -/
def paramKey (kind id : Nat) : Nat := kind * 65536 + id

/-- The parameter sets and headers of a unit's first picture, in order; those outside the base layer are ignored. -/
def setsOf (items : List UnitItem) : List (Nat × Bool) :=
  (firstPicture false items).filterMap fun e =>
    match e.part with
    | .set kind id valid => if e.base then some (paramKey kind id, valid) else none
    | _ => none

/-- A picture's frame: its unit, its key hold and its output. A unit without a picture has length 0 here. -/
def decFrame (p : Packet) (u : Nat) (r : UnitRef) (key : Nat) (items : List UnitItem) (bufs : List Nat) (desc : List Word)
    (out : Word × Word) : Frame :=
  { Frame.ofPacket p u true with
    bufs, input := r.srcA, inputOff := r.srcB, pitch := b2n r.host, length := if holdsCoded items then r.length.toNat else 0,
    consumed := min r.length.toNat (sumL ((firstPicture false items).map UnitItem.bytes)), sets := setsOf items,
    intra := match items.find? startsPicture with | some e => e.part == .intraPicture | none => false,
    record := if r.map = 0 then none else some (r.map, r.mapOff),
    keySlot := if key = 0xFF then none else some key, outDesc := desc, outRef := out }

/-- Where a picture's output lies in device memory: words 0–11 of its descriptor and the bands of its planes (R221). -/
def State.outRangesOf (s : State) (desc : List Word) (out : Word × Word) : List (Nat × Nat) :=
  (s.refAddr out.1 out.2, 48) :: [0, 1, 2].flatMap fun p =>
    (descBands desc p).map fun b => (s.refAddr b.handle (loW b.off), descPitch desc * b.lines)

/-- The output of a frame in device memory. -/
def State.outRanges (s : State) (f : Frame) : List (Nat × Nat) :=
  if f.outDesc.isEmpty || f.length = 0 then [] else s.outRangesOf f.outDesc f.outRef

/-- The output of frame `id` is undefined until its completion (R33). -/
def State.undefineOut (s : State) (id : Nat) (rs : List (Nat × Nat)) : State :=
  { s with mem := (s.mem.settled id).undefine id s.free rs, free := s.free + 1 }

/-- Holds that a picture takes at its check: its key (R227) and its buffers (R294); its output is the captured descriptor's. -/
def State.holdFor (s : State) (f : Frame) : State :=
  let s0 := s.pinAll f.bufs
  let s1 := s0.undefineOut f.id (s.outRanges f)
  match f.keySlot with
  | some k => s1.holdKey k
  | none => s1

/-- DEC_DATA (R219, R220). `items` are the NAL units or OBUs of the unit. One without a coded picture waits for the session's
earlier pictures, then completes with its parameter sets in effect, and makes no crossing. -/
def execDecData (c : Ctx) (items : List UnitItem) (s : State) : Res :=
  .next (s.atKeystone c 0x30 s.decDataChecks fun p =>
    let d := s.loadWs (s.refAddr (p.p 4) (p.p 5)) 64
    let f := decFrame p 0 p.unitRef (fld (p.p 3) 0 8) items (p.unitRef.bufs ++ descBufs (p.p 4) d) d (p.p 4, p.p 5)
    let s1 := (s.leaveCtx c p .frame).holdFor f
    if f.holdsPicture then s1.enterScheduler f else (s1.setFrames (s1.span.frames ++ [f])).settleDrain p.sessField)

/-- DEC_FLUSH (R210). -/
def execDecFlush (c : Ctx) (s : State) : Res := .next (s.flushKeystone c 0x31 false)

-- DEC_BURST ----------------------------------------------------------------------------------------------------

/-- Entry `k` of a burst's unit list. -/
def State.burstEntry (s : State) (p : Packet) (k : Nat) : List Word := s.loadWs (s.refAddr (p.p 1) (p.p 2) + 32 * k) 8

/-- A unit list entry as a unit (Table 10-6). -/
def unitOfEntry (w : List Word) : UnitRef :=
  { host := bit (wd w 5) 31, srcA := wd w 0, srcB := wd w 1, length := wd w 2, map := wd w 3, mapOff := wd w 4 }

/-- PITCH_P and OUT_STRIDE of a peer output (R232). -/
def Session.peerPitch (x : Session) : Nat := ceilDiv (x.width * x.sampleBytes) 256 * 256
def Session.peerStride (x : Session) : Nat :=
  let lines := x.planeLines 0 x.height + x.planeLines 1 x.height + x.planeLines 2 x.height
  ceilDiv (4096 + x.peerPitch * lines) 65536 * 65536

/-- DEC_BURST's PEER. -/
def Packet.burstPeer (p : Packet) : Bool := bit (p.p 4) 31

/-- The members of a burst gang (R228): the home span, then active decode spans that are home to no session. -/
def State.burstGang (s : State) (i n : Nat) : List Nat :=
  let home := match (s.session i).home with | some (_, l) => l | none => 0
  let free := (List.range 16).filter fun l => l != home && s.serves .dec l &&
    !((s.admittedOf .dec none).any fun e => match e.2.home with | some (lg, g) => (groupIdx lg g).contains l | none => false)
  home :: free.take (n - 1)

/-- Gallery bytes that a burst takes beyond the reservation (R208). -/
def Session.burstNeed (x : Session) (g : Nat) : Nat :=
  sumL (x.slotSizes.map fun b => (x.nSlot (max x.inflight g) - x.nSlot x.inflight) * b)

/-- The checks of DEC_BURST (R208, R231, R232). -/
def State.decBurstChecks (s : State) (p : Packet) : List (Option Refuse) :=
  let x := s.session p.sessField
  let n := (p.p 3).toNat
  let key := fld (p.p 4) 0 8
  let out := pair64 (p.p 6) (p.p 5)
  let early := s.kindChecks p false ++
    [need (within 1 8 (p.p 0).toNat) (badParam 0x070A 0), need (within 1 4096 n) (badParam 0x070A 3),
     s.checkRef p.fid (p.p 1) (p.p 2) (32 * n) 1]
  match firstRefusal early with
  | some r => [some r]
  | none =>
    (List.range n).flatMap (fun k =>
      let w := s.burstEntry p k
      [need (fld (wd w 5) 0 31 == 0 && wd w 6 == 0 && wd w 7 == 0) (badParam 0x0709 1),
       s.unitRefusal p.fid (unitOfEntry w) key ⟨1, 1, 1, 1⟩]) ++
    (if p.burstPeer then
       [need (out % 65536 == 0) (badParam 0x070A 5), need (decide (out + n * x.peerStride ≤ 2 ^ 64)) (badParam 0x0301 5)]
     else (List.range n).map fun k => s.descRefusal x p.fid (p.p 5) (p.p 6 + loW (256 * k)) 5) ++
    [need (decide (x.burstNeed (s.burstGang p.sessField (p.p 0).toNat).length ≤ s.freeMemory)) ⟨0x11, 0x0808, 0⟩]

/-- Unit `k` of a burst as a frame on its member (R229). -/
def State.burstFrame (s : State) (p : Packet) (gang : List Nat) (items : List (List UnitItem)) (k : Nat) : Frame :=
  let n := (p.p 3).toNat
  let u := unitOfEntry (s.burstEntry p k)
  let x := s.session p.sessField
  let off := p.p 6 + loW (256 * k)
  let d := if p.burstPeer then [] else s.loadWs (s.refAddr (p.p 5) off) 64
  let bus := pair64 (p.p 6) (p.p 5) + k * x.peerStride
  let f := decFrame p k u (fld (p.p 4) 0 8) (items.getD k []) (handleKey (p.p 1) :: u.bufs ++ (if p.burstPeer then [] else descBufs (p.p 5) d)) d
    (if p.burstPeer then (loW bus, hiW bus) else (p.p 5, off))
  { f with burst := some (k, k + 1 == n), peer := some (gang.getD (k % gang.length) 0), entered := s.now }

/-- DEC_BURST (R228–R233): the gang is formed and every unit waits for its member. `items` are the NAL units
or OBUs of each. -/
def execDecBurst (c : Ctx) (items : List (List UnitItem)) (s : State) : Res :=
  .next (s.atKeystone c 0x32 s.decBurstChecks fun p =>
    let i := p.sessField
    let gang := s.burstGang i (p.p 0).toNat
    let fs := (List.range (p.p 3).toNat).map fun k => s.burstFrame p gang items k
    let s1 := s.leaveCtx c p (.burst fs.length)
    let s2 := s1.setSession i { s1.session i with burstExtra := (s1.session i).burstNeed gang.length }
    let s3 := fs.foldl State.holdFor (s2.setFrames (s2.span.frames ++ fs))
    let s4 := fs.foldl (fun st f => if st.mustDrop f && f.length != 0 then st.endEmpty f 0x22 else st) s3
    s4.settleDrain i)

/-- The burst picture that a decode span may give a row to (R229): the oldest of its member with rows left, with a
slot free when it starts. -/
def State.burstNext (s : State) (l : Nat) : Option Frame :=
  s.span.frames.find? fun f =>
    f.burst.isSome && f.peer == some l && f.length != 0 && (f.stage == .waiting || f.stage == .granted) &&
      s.reachable (s.session f.sess).owner

/-- N_SLOT while a burst runs (R208): the session's and those that the extra bytes hold. -/
def Session.burstSlots (x : Session) : Nat := x.nSlot x.inflight + x.burstExtra / max 1 (x.slotSizes.headD 1)

/-- A burst unit's first row: it takes its shadow slot; a source that is stale or no longer owned makes it LOST
with INPUT (R231). None while no slot is free. -/
def State.dispatchUnit (s : State) (f : Frame) : Option (State × Frame) :=
  if f.stage != .waiting then some (s, f)
  else
    let n := (s.session f.sess).burstSlots
    let z := s.freeSlot f.sess 0 n
    if n ≤ z then none
    else
      let g := { f with stage := .granted, group := (0, f.peer.getD 0), shadow := [z], firstTick := s.now,
                        refs := [(s.session f.sess).vis.get 0 []], staged := s.sourceBytes f }
      let owner := (s.session f.sess).owner
      if f.pitch = 0 && (s.checkHandle owner f.input 0).isSome then
        some ((s.protoEvent owner 0), { g with flags := 0x10040000 })
      else some (s.fetchSource g, g)

/-- A burst row is granted on a decode span (R229). -/
def State.grantRow (s : State) (l : Nat) : State :=
  match s.burstNext l with
  | none => s
  | some f =>
    match s.dispatchUnit f with
    | none => s
    | some (s1, g) =>
      let k := groupKey .dec 0 l
      ((s1.setFrame g).setGroup k { s1.group k with holder := some g.id }).bump Reg.burstRows 0 32

/-- Waiting burst pictures of a member that cannot make their deadline are dropped at its decision (R107, R229). -/
def State.dropBurst (s : State) (l : Nat) : State :=
  (s.span.frames.filter fun f => f.burst.isSome && f.peer == some l && f.stage == .waiting && f.holdsPicture).foldl
    (fun st f => if st.mustDrop f then st.endEmpty f 0x22 else st) s

/-- SCHEDULER_DECISION (R115, R229): a group decides; a decode span on which no session frame is granted may give
a row to a burst. -/
def execSchedulerDecision (k : SpanKind) (sizeLog : Fin 3) (group : Fin 16) (s : State) : Res :=
  let lg := sizeLog.val
  let i := group.val
  if !s.canDecide k lg i then .next s
  else
    let (s1, granted) := (if k = .dec && lg = 0 then s.dropBurst i else s).schedule k lg i
    if granted then .next s1
    else if k = .dec && lg = 0 && !(s1.waitingOn .dec 0 i).any (fun f => s1.eligible f) then .next (s1.grantRow i)
    else .next s1

-- Rows and damage ------------------------------------------------------------------------------------------------

/-- Bits of Table 10-7. -/
def flConcealed : Nat := 0x80000000
def flMissing : Nat := 0x40000000
def flDerived : Nat := 0x20000000
def flLost : Nat := 0x10000000

/-- A picture after damage (R235, R236): the error's flag, and the run it discards or the whole picture LOST. -/
def Frame.damaged (f : Frame) (d : Damage) : Frame :=
  let flags := f.flags ||| errorFlag d.error
  match d.run with
  | .nothing => { f with flags }
  | .picture => { f with flags := flags ||| flLost }
  | .units cols rows cs rs detected first resume =>
    let us := discarded cols rows cs rs detected first resume
    { f with flags := flags ||| flConcealed ||| (if resume.isNone && d.error != .neverCame then 0x20000 else 0),
             concealed := f.concealed ++ us.filter fun u => !f.concealed.contains u }

/-- Rows of a picture that are filtered: all but the last past its pier, and that one once no row is left (R217). -/
def Frame.filtered (f : Frame) : Nat := if f.stage == .tail then f.rowsDone else f.rowsDone - 1

/-- The row holding line min(`y` + 8, HEIGHT − 1) of a picture is filtered, or the picture has crossed (R230). -/
def State.lineReady (s : State) (x : Session) (id y : Nat) : Bool :=
  match s.frame? id with
  | some g => decide (min (y + 8) (x.height - 1) / 64 < g.filtered)
  | none => true

/-- The row end can come: the picture has the row, its blocks had the lines they read, and the errors are of its format. -/
def State.rowEndOk (s : State) (x : Session) (f : Frame) (r : RowEnd) : Bool :=
  decide (f.rowsDone < r.rows) && r.reads.all (fun e => s.lineReady x e.1 e.2) &&
    r.damage.all fun d => errorOf x.codec d.error && runFits d.error d.run

/-- The clear bytes of a unit, as stage 1 gives them to the parser (R224, R226). -/
def State.clearBytes (s : State) (f : Frame) : List Byte :=
  match f.keySlot, f.record with
  | some k, some (h, off) =>
    let p := s.protectionAt (s.refAddr h off)
    decryptUnit p (s.key k).key 0 p.entries f.staged
  | _, _ => f.staged

/-- DECODE_ROW_END (R217, R230, R236): the parser has read the unit's clear bytes (R226), a picture's span passes a row end and leaves its pier, with the damage found there. A
burst row gives its span back; after its last row the picture is past its last row end. A picture that was to end at its next
pier ends. -/
def execDecodeRowEnd (frame : Nat) (row : RowEnd) (s : State) : Res :=
  match s.frame? frame with
  | none => .next s
  | some f =>
    let x := s.session f.sess
    let holds := (s.group (groupKey .dec f.group.1 f.group.2)).holder == some f.id
    if s.inGf || !f.decode || f.stage != .granted || !holds || !s.rowEndOk x f row then .next s
    else
      let h := { row.damage.foldl Frame.damaged f with
        rowsDone := f.rowsDone + 1, bottom := row.bottom,
        staged := if f.pitch = 0 then f.staged else (f.staged ++ row.input).take f.length }
      let g := { h with parser := Config.parserState x.codec (s.clearBytes h) h.rowsDone }
      match g.abortAt with
      | some st => .next ((s.setFrame g).endEmpty g st)
      | none =>
        if row.rows ≤ g.rowsDone then
          let t := { g with stage := .tail, lastPier := s.now }
          .next ((s.setFrame t).releaseGang t)
        else if g.burst.isSome then .next ((s.setFrame g).releaseGang g)
        else .next (s.setFrame g)

-- The crossing of a picture ----------------------------------------------------------------------------------------

/-- A shown picture's place: epoch, ORDER and the session after it (R223). AV1 and VP9 count the shown frames of
the epoch. -/
def Session.orderOf (x : Session) (pic : PictureInfo) : Nat × Nat :=
  match pic.order with
  | none => (x.epoch, x.order)
  | some o =>
    let epoch := if pic.seqStart && x.seqSeen then (x.epoch + 1) % 65536 else x.epoch
    if x.codec = 0 ∨ x.codec = 4 then (epoch, if pic.seqStart then 0 else x.order) else (epoch, o.toNat)

/-- Session `x` with a picture's order reported. -/
def Session.reported (x : Session) (pic : PictureInfo) : Session :=
  let (e, o) := x.orderOf pic
  { x with epoch := e, order := (o + 1) % 65536, seqSeen := x.seqSeen || pic.seqStart, decoded := x.decoded + 1,
           recovery := (if e = x.epoch then x.recovery else []) ++ (pic.recovery.map BitVec.toNat).toList }

/-- The target of a recovery point before this picture, in its epoch, has been reached (R239). -/
def Session.recovered (x : Session) (epoch order : Nat) : Bool :=
  epoch == x.epoch && x.recovery.any fun t => decide ((order + 65536 - t) % 65536 < 32768)

/-- The picture is larger than the session's (Table 10-2). -/
def Session.tooLarge (x : Session) (pic : Decoded) : Bool :=
  decide (x.width < pic.sizeW) || decide (x.height < pic.sizeH)

/-- The picture is content outside the decoder (R215, Table 10-2). -/
def Session.unsupported (x : Session) (pic : Decoded) : Bool :=
  x.tooLarge pic || pic.depth != x.bitDepth || pic.chroma != x.chroma || pic.outside

/-- The source in device memory cannot be read: a poisoned line lies in it (R279). -/
def State.sourceLost (s : State) (f : Frame) : Bool :=
  f.pitch = 0 && s.mem.poisonIn (s.refAddr f.input f.inputOff) f.length

/-- What a picture has of its own: its damage, content outside the decoder, an unreadable source, a parameter set or header that
is absent or invalid (R234, Table 10-8). -/
def State.ownFlags (s : State) (f : Frame) (pic : Decoded) : Nat :=
  let x := s.session f.sess
  f.flags ||| (if x.unsupported pic then flLost ||| 0x100000 else 0) ||| (if s.sourceLost f then flLost ||| 0x40000 else 0) |||
    (if pic.needs.all fun n => x.sets.get (paramKey n.1 n.2) false then 0 else 0x200000)

/-- The flags hold LOST. -/
def isLost (flags : Nat) : Bool := flags / flLost % 2 == 1

/-- Pictures that a picture's blocks read: its own, the one it shows, and the first reference where units are concealed from
it (R237). -/
def Frame.readsOf (f : Frame) (pic : Decoded) (shown : Option Nat) : List Nat :=
  pic.reads ++ shown.toList ++ (if f.concealed.isEmpty || pic.intra then [] else pic.first.toList)

/-- The flags of a decoded frame, shown or hidden (R234, R238, R239). -/
def State.codedFlags (s : State) (f : Frame) (pic : Decoded) (shown : Option Nat) (recovered : Bool) : Nat :=
  let own := s.ownFlags f pic
  let lost := isLost own
  let found (n : Nat) := ((s.session f.sess).vis.get 0 []).find? fun z => z.num == n
  let missing := (f.readsOf pic shown).any fun n => (found n).isNone
  let derived := (f.readsOf pic shown).any fun n => match found n with | some z => z.flags != 0 | none => false
  let clear := lost || recovered
  let units := if lost then ceilDiv pic.sizeW 64 * ceilDiv pic.sizeH 64 else f.concealed.length
  own ||| (if missing && !clear then flMissing else 0) ||| (if derived && !clear then flDerived else 0) ||| min units 65535

/-- The flags of a picture at its crossing (R234, R238, R239). -/
def State.pictureFlags (s : State) (f : Frame) (pic : PictureInfo) : Nat :=
  let x := s.session f.sess
  let (e, o) := x.orderOf pic
  s.codedFlags f pic.toDecoded pic.shown (x.recovered e o) ||| (if pic.notForOutput then 0x8000000 else 0)

/-- A reference as a span reads it: the visible picture, its substitute, or none for mid-grey (R207, R238). -/
def Session.readRef (x : Session) (order : Word) (n : Nat) : Option Slot :=
  match (x.vis.get 0 []).find? fun z => z.num == n with
  | some z => some z
  | none => substituteIn (x.vis.get 0 []) order

/-- A decoded frame as the Gallery keeps it (R214, R237): the substitute where it is LOST, the named picture where it is a shown one,
else its own samples with the discarded units concealed. A picture larger than the session's takes its substitute's own size, or
the session's for mid-grey (log 38). -/
def State.keptSamples (s : State) (f : Frame) (pic : Decoded) (shown : Option Nat) (order : Word) : Samples :=
  let x := s.session f.sess
  let large := x.tooLarge pic
  let w := if large then x.width else pic.sizeW
  let h := if large then x.height else pic.sizeH
  let grey := midGrey x.bitDepth x.chroma w h
  let read (z : Option Slot) : Samples :=
    match z with
    | some z => if large then z.pic else readAt x.codec x.chroma w h z.pic
    | none => grey
  if isLost (s.ownFlags f pic) then read (substituteIn (x.vis.get 0 []) order)
  else match shown with
    | some n => read (x.readRef order n)
    | none =>
      let o : Holes :=
        { codec := x.codec, depth := x.bitDepth, cols := ceilDiv w 64, rows := ceilDiv h 64, units := f.concealed,
          vectors := pic.vectors,
          ref := if pic.intra then none
                 else some (read (pic.first.bind (x.readRef order))) }
      o.fill x.chroma pic.pic

/-- The picture without film grain, as the Gallery keeps it (R214, R237). -/
def State.galleryPicture (s : State) (f : Frame) (pic : PictureInfo) : Samples :=
  let (e, o) := (s.session f.sess).orderOf pic
  s.keptSamples f pic.toDecoded pic.shown (at_ 16 e ||| at_ 0 o)

/-- The picture as it is output: with its film grain, where it has some and was decoded (R214). -/
def State.outPicture (s : State) (f : Frame) (pic : PictureInfo) : Samples :=
  match pic.grained with
  | some g => if isLost (s.ownFlags f pic.toDecoded) || !f.concealed.isEmpty then s.galleryPicture f pic else g
  | none => s.galleryPicture f pic

/-- Words 0–11 of the output (Table 10-4). -/
def Session.outWords (x : Session) (pic : PictureInfo) (order flags : Word) : List Word :=
  [order, flags, at_ 16 (pic.sizeW % 65536) ||| at_ 0 (pic.sizeH % 65536), pic.crop, pic.disp,
   (pic.colour &&& 0xFFFFFF80) ||| at_ 5 x.chroma ||| at_ 0 x.bitDepth, loW (x.decoded + 1), 0, 0, 0, 0, 0]

/-- The bytes of a sample (R222): one, or a 16-bit little-endian container with the sample in [15:6]. -/
def sampleBytesOf (depth v : Nat) : List Byte := if depth = 10 then natBytes 2 (64 * (v % 1024)) else natBytes 1 v

/-- The lines of plane `p` of a picture as they are stored: luma, Cb and Cr interleaved or Cb alone, Cr (R221, R222). -/
def planeLinesOf (depth chroma p : Nat) (s : Samples) : List (List Byte) :=
  let bytes (l : List Nat) : List Byte := l.flatMap (sampleBytesOf depth)
  match p with
  | 0 => s.y.map bytes
  | 1 => if chroma = 2 then s.cb.map bytes
         else (s.cb.zip s.cr).map fun (u, v) => (u.zip v).flatMap fun (a, b) => sampleBytesOf depth a ++ sampleBytesOf depth b
  | _ => if chroma = 2 then s.cr.map bytes else []

/-- Lines are written into bands in order (R222). -/
def State.writeBands (s : State) (pitch : Nat) : List Band → List (List Byte) → State
  | [], _ => s
  | b :: r, lines =>
    let a := s.refAddr b.handle (loW b.off)
    let here := (lines.take b.lines).zipIdx
    let s1 := here.foldl (fun st (l, i) => st.store (a + i * pitch) l) s
    State.writeBands s1 pitch r (lines.drop b.lines)

/-- A picture's output is written to its descriptor and bands, or toward its peer, a flushing read proving those writes (R221,
R222, R232, R233). -/
def State.writePicture (s : State) (f : Frame) (pic : PictureInfo) (words : List Word) : State :=
  let x := s.session f.sess
  let rows (p : Nat) := planeLinesOf x.bitDepth x.chroma p (s.outPicture f pic)
  if f.outDesc.isEmpty then
    let base := pair64 f.outRef.2 f.outRef.1
    let head := s.emitWrite x.owner base (bytesOfWords words ++ List.replicate 4048 0)
    let done := ([0, 1, 2].foldl (fun (acc : State × Nat) p =>
      let st := (rows p).zipIdx.foldl (fun u (l, i) => u.emitWrite x.owner (acc.2 + i * x.peerPitch) l) acc.1
      (st, acc.2 + x.peerPitch * x.planeLines p x.height)) (head, base + 4096)).1
    done.emitFlush x.owner base
  else
    let s1 := s.store (s.refAddr f.outRef.1 f.outRef.2) (bytesOfWords words)
    [0, 1, 2].foldl (fun st p => st.writeBands (descPitch f.outDesc) (descBands f.outDesc p) (rows p)) s1

/-- A decode session's visible set after a picture (R206): the bitstream's marking, held to R by decode order. -/
def decodeVisible (refs : Nat) (keep : List Nat) (isRef : Bool) (new : Slot) (xs : List Slot) : List Slot :=
  let kept := (xs.filter fun z => keep.contains z.num) ++ (if isRef then [new] else [])
  if kept.length ≤ refs then kept else kept.drop (kept.length - refs)

/-- A decoded frame in a Gallery slot (R194, R234). -/
def Session.slotOf (x : Session) (slot : Nat) (order : Word) (flags : Nat) (p : Samples) : Slot :=
  Slot.ofPicture slot (x.decoded + 1) order (flags / flLost % 16) 0 x.bitDepth x.chroma (p.y.headD []).length p.y.length false p

/-- REF_GEN one higher (R203). -/
def Session.countRef (x : Session) : Session :=
  { x with snap := x.snap.put 0 (setWd (x.snapRec 0) 4 (wd (x.snapRec 0) 4 + 1)) }

/-- A hidden frame enters the Gallery only (R223): it is judged, concealed and flagged as a shown one (R215, R235–R239), its refresh
acts on the visible set (R206), and it takes the lowest slot that is free then, of those that its own unit alone read too. Where
it enters the set, REF_GEN rises by 1 as for a shown picture: R203 and R206 do not say it of a hidden one (DESIGN CHOICE, log 93).
With no slot left it stays out of the set. -/
def State.enterHidden (s : State) (f : Frame) (order : Word) (h : HiddenFrame) : State :=
  let i := f.sess
  let x := s.session i
  let g := h.damage.foldl Frame.damaged { f with flags := 0, concealed := [] }
  let mk (slot : Nat) : Slot :=
    x.slotOf slot order (s.codedFlags g h.toDecoded none false) (s.keptSamples g h.toDecoded none order)
  let vis (slot : Nat) : List Slot := decodeVisible x.refs h.keep h.isRef (mk slot) (x.vis.get 0 [])
  let stay := (vis 0).filter fun z => z.num != x.decoded + 1
  let n := x.burstSlots
  let free := ((s.setFrame { f with refs := [] }).setSession i { x with vis := x.vis.put 0 stay, before := none }).freeSlot i 0 n
  let enters := h.isRef && decide (free < n)
  let y := if enters then x.countRef else x
  s.setSession i { y with decoded := x.decoded + 1, vis := x.vis.put 0 (if enters then vis free else stay) }

/-- The parameter sets and headers that a frame uses are valid, or the parser has shown that one is not (R235). -/
def setsSeen (x : Session) (f : Frame) (pic : Decoded) : Bool :=
  bit (loW f.flags) 21 || pic.needs.all fun n => x.sets.get (paramKey n.1 n.2) false

/-- A picture can cross (R217): its last row end is past, what the reconstruction made of it has its size, and a missing parameter
set has discarded what it must (R235). -/
def State.pictureReady (s : State) (f : Frame) (pic : PictureInfo) : Bool :=
  let x := s.session f.sess
  f.stage == .tail && (isLost (s.ownFlags f pic.toDecoded) || setsSeen (x.takeSets f) f pic.toDecoded) &&
    (isLost (s.ownFlags f pic.toDecoded) || pic.shown.isSome ||
      (ceilDiv pic.sizeH 64 == f.rowsDone && samplesFit x.chroma pic.sizeW pic.sizeH pic.pic)) &&
    match pic.grained with | some g => samplesFit x.chroma pic.sizeW pic.sizeH g | none => true

/-- The full crossing of a decode picture (R23, R206, R217, R223, R234): the unit's parameter sets and hidden frames take effect,
then the picture. -/
def State.crossPicture (s0 : State) (f : Frame) (pic : PictureInfo) : State :=
  let i := f.sess
  let sets := s0.setSession i (((s0.session i).keepBank s0.cyc).takeSets f)
  let (e, o) := (s0.session i).orderOf pic
  let order := at_ 16 e ||| at_ 0 o
  let s := pic.hidden.foldl (fun st h => st.enterHidden f order h) sets
  let x := s.session i
  let flags := s.pictureFlags f pic
  let late := s.isLate f
  let status := if late then 2 else if flags / flLost % 16 != 0 then 1 else 0
  let s1 := s.writePicture f pic (x.outWords pic order (loW flags))
  let s2 := { s1 with mem := s1.mem.settled f.id }
  let kept := s.galleryPicture f pic
  let new := x.slotOf (f.shadow.getD 0 0) order flags kept
  let rec1 := recordAll (x.snapRec 0) false (x.mem 0) s.now status (s.frameTag f)
  let rec2 := recordFull rec1 pic.isRef 0 0 0 late (status == 1) false
  let y := x.reported pic
  let s3 := s2.setSession i
    { y with crossings := y.crossings + 1, drains := y.drains + 1, crossedFull := true, snap := y.snap.put 0 rec2,
             vis := y.vis.put 0 (decodeVisible x.refs pic.keep pic.isRef new (x.vis.get 0 [])) }
  let v2 := match f.burst with
    | some (u, last) => at_ 31 (b2n last) ||| at_ 0 u
    | none => loW f.consumed
  let s4 := ((s3.dropFrame f).returnBurst f).frameDone f status [order, loW flags, v2, 0]
  let s5 := if late then s4.schedReport f 0x0A01 else s4
  s5.settleDrain i

/-- From its submission the output of a decode packet in device memory is undefined (R33): of each descriptor that its check would
accept as it stands. The device sees the entry of a host's ring at its fetch (log 39). -/
def State.undefinePacket (s : State) (p : Packet) : State :=
  let x := s.session p.sessField
  let mark (st : State) (k : Nat) (h off : Word) : State :=
    if (st.descRefusal x p.fid h off 0).isNone then
      st.undefineOut (p.id * 4096 + k) (st.outRangesOf (st.loadWs (st.refAddr h off) 64) (h, off))
    else st
  if p.opc = 0x30 then mark s 0 (p.p 4) (p.p 5)
  else if p.opc = 0x32 && !p.burstPeer then
    (List.range (min 4096 (p.p 3).toNat)).foldl (fun st k => mark st k (p.p 5) (p.p 6 + loW (256 * k))) s
  else s

/-- A burst picture's peer writes, or the flushing read that proves them, failed under the retry rule (R233): a bus error
is reported, and the picture ends ABORTED. The spec names no Viaduct channel for peer writes: a free value stands for it. -/
def State.peerFailed (s : State) (f : Frame) : State :=
  let (w, s1) := s.takeFree
  (s1.log { Report.of (0x0600 + fld w 0 8) 0x0601 with
            session := some f.sess, fid := some (s.session f.sess).owner, reaction := 2 }).endEmpty f 0x20

/-- CROSSING (R23): a frame in its tail commits, after the frames of its session before it. A picture without its
content is one whose peer writes failed (R233). -/
def execCrossing (frame : Nat) (content : List StepContent) (pic : Option PictureInfo) (s : State) : Res :=
  match s.frame? frame with
  | none => .next s
  | some f =>
    if s.inGf || !f.holdsPicture || !s.crossesNext f then .next s
    else if s.tooLate f then .next (s.endEmpty f 0x22)
    else match f.decode, pic with
      | true, some p => if s.pictureReady f p then .next (s.crossPicture f p) else .next s
      | false, none =>
        let g := s.flushFrame f
        if f.stage == .tail && s.crossReady g content then .next (s.crossEncode g content) else .next s
      | true, none => if f.stage == .tail && f.burst.isSome && f.outDesc.isEmpty then .next (s.peerFailed f) else .next s
      | false, some _ => .next s

end Sys2Proof.Machine
end

