-- ==== Sys2Proof/Machine/Spans.lean ====
section
/-! DEFINITION. Faults of spans, Vestibules and Mezzanines (R372–R376): withdrawal, spares, self-tests, frame faults
and replays by detour. -/

namespace Sys2Proof.Machine

-- Reports ----------------------------------------------------------------------------------------------------------

/-- What raised a fault: the unit itself, or an injection with its class and its submitter (R383). -/
abbrev Origin := Option (Nat × Nat)

/-- A report of a unit, or of an injection named as that unit's. -/
def reportOf (unit code : Nat) (o : Origin) : Report :=
  match o with
  | none => Report.of unit code
  | some (cls, fid) => { Report.of unit code with cls, injected := true, fid := some fid }

/-- The report names the first of the frames; FID is its session's function, or the injector (log 40). -/
def State.naming (s : State) (r : Report) (fs : List Frame) : Report :=
  match fs with
  | [] => r
  | f :: _ => { r with session := some f.sess, fid := if r.injected then r.fid else some (s.session f.sess).owner }

-- Frame faults -------------------------------------------------------------------------------------------------------

/-- The frame is replayed after a frame fault (R374); `spare` says that a spare took the index. A frame without a
deadline never meets the bound of PROTECTED_HINT (log 40). -/
def State.replays (s : State) (f : Frame) (spare : Bool) : Bool :=
  let x := s.session f.sess
  x.isProtected || (f.protectedHint && spare && decide (s.now + 200 + s.cNow x + x.tail ≤ f.deadline))

/-- The frame at its first row again (R375, R178): number, lists, shadows and inputs stay. A source that was stale
when a burst unit was dispatched stays lost (R231). -/
def Frame.rewind (f : Frame) (st : FStage) : Frame :=
  { f with stage := st, run := f.run.map StepRun.restart, members := f.members.map (fun _ => ⟨0, 0, RowStart.fresh⟩), piers := [],
           keptRows := [], chains := [], entries := [], stalled := [], arrivals := [], rowsDone := 0, concealed := [], parser := [], bottom := Samples.none, flags := if f.flags &&& 0x10040000 = 0x10040000 then 0x10040000 else 0 }

/-- The frame's gang is kept for its replay (R375). -/
def State.keepGang (s : State) (f : Frame) : State :=
  let g := groupKey f.kind f.group.1 f.group.2
  s.setGroup g { s.group g with holder := some f.id }

/-- One frame fault (R374, R375): `first` says that no frame before it is replayed on the gang. -/
def State.frameFault (s : State) (id : Nat) (spare first : Bool) : State :=
  match s.frame? id with
  | none => s
  | some f =>
    if s.replays f spare then
      if first then (s.setFrame (f.rewind .replayWait)).keepGang f else s.setFrame (f.rewind .replayBehind)
    else if f.stage == .granted && first then s.setFrame { f with abortAt := some 0x20 }
    else s.endEmpty f 0x20

/-- The frame's replay goes first on its gang: it is in its tail, or waits for such a replay (R375). -/
def Frame.isFirst (f : Frame) : Bool := f.stage == .tail || f.stage == .replayWait

/-- The frames that one fault strikes, tail frame first, are replayed or end (R374, R375). -/
def State.frameFaults (s : State) (fs : List Frame) (spare : Bool) : State :=
  let firsts := fs.filter Frame.isFirst
  let holders := fs.filter fun f => !f.isFirst
  let s1 := firsts.foldl (fun st f => st.frameFault f.id spare true) s
  holders.foldl (fun st f => st.frameFault f.id spare (!firsts.any fun t => s.replays t spare)) s1

/-- REACTION of a fault that strikes these frames (R443); `idle` where it strikes none. -/
def State.frameReaction (s : State) (fs : List Frame) (spare : Bool) (idle : Nat) : Nat :=
  if fs.isEmpty then idle else if fs.all fun f => s.replays f spare then 1 else 2

/-- A frame that waits for its replay. -/
def Frame.awaitsReplay (f : Frame) : Bool := f.stage == .replayWait || f.stage == .replayBehind

/-- The frames whose work runs on a logical span (R374): the gang's holder, first, then those that wait there for their replay, and
those in their tail. -/
def State.struck (s : State) (k : SpanKind) (l : Nat) : List Frame :=
  let on := s.span.frames.filter fun f => f.kind == k && (groupIdx f.group.1 f.group.2).contains l
  (on.filter fun f => f.stage == .granted && (s.group (groupKey k f.group.1 f.group.2)).holder == some f.id) ++
    (on.filter Frame.awaitsReplay) ++ on.filter fun f => f.stage == .tail

-- Spans ----------------------------------------------------------------------------------------------------------------

/-- Unit code of a span (Table 17-2). -/
def spanUnit (k : SpanKind) (p : Nat) : Nat := 256 * (1 + kindIx k) + p

/-- Available spares that no index waits for. -/
def State.sparesLeft (s : State) (k : SpanKind) : Nat :=
  (s.spares k).length - (s.span.waiting.filter fun w => w.1 == k).length

/-- A span starts its self-test, which reports to the entry of SEQ `seq`; it runs, so it is not power-gated. -/
def State.startTest (s : State) (t : SpanTest) : State :=
  (({ s with span := { s.span with testing := s.span.testing ++ [t] } }).setOutcome t.seq 1).setRegB
    (Reg.gated (kindIx t.kind)) t.phys false

/-- The index loses its span. -/
def State.unmap (s : State) (k : SpanKind) (l : Nat) : State := s.setSpanMap k ((s.spanMap k).del l)

/-- The index waits for the lowest available spare (R373). -/
def State.awaitSpare (s : State) (k : SpanKind) (l : Nat) : State :=
  { s.unmap k l with span := { (s.unmap k l).span with waiting := s.span.waiting ++ [(k, l)] } }

/-- A second fault of a span whose self-test runs (R385): with an injected and a real fault of one cycle one merges into the
other; otherwise the test that runs is all there is to do. -/
def State.secondFault (s : State) (r : Report) : Recorded :=
  s.merging r false fun st => st.record { r with reaction := 0 }

/-- A contained fault of a physical span (R373, R374): an active span is withdrawn or tests in place, a spare tests,
and the frames on it are replayed or end. -/
def State.spanFault (s : State) (k : SpanKind) (p : Nat) (code : Nat) (o : Origin) : Recorded :=
  let r := reportOf (spanUnit k p) code o
  if s.classOf r ≠ 1 then s.report r
  else match s.span.testing.find? fun t => t.kind == k && t.phys == p with
    | some _ =>
      let x := s.secondFault r
      if !r.injected && (s.twin r).isSome then
        { x with st := { x.st with span := { x.st.span with testing := x.st.span.testing.map fun u =>
            if u.kind == k && u.phys == p then { u with seq := x.seq } else u } } }
      else x
    | none =>
      match s.logicalOf k p with
      | none =>
        let x := s.report r
        { x with st := x.st.startTest { kind := k, phys := p, inPlace := none, spare := true, seq := x.seq } }
      | some l =>
        let fs := s.struck k l
        let spare := decide (0 < s.sparesLeft k)
        let x := s.report { s.naming r fs with reaction := s.frameReaction fs spare 7 }
        let s1 := if spare then x.st.awaitSpare k l else x.st
        let s2 := s1.startTest { kind := k, phys := p, inPlace := if spare then none else some l, spare := false, seq := x.seq }
        { x with st := s2.frameFaults fs spare }

/-- SPAN_CHECK_FAILED (R372, R373). An SRAM word that was corrected is only logged (codes 0x0103, 0x0203). A retired span runs nothing, and what a span's own self-test finds is its result. -/
def execSpanCheckFailed (k : SpanKind) (i : Fin 18) (corrected : Bool) (s : State) : Res :=
  let p := i.val
  let code := match k with | .enc => 0x0101 | .dec => 0x0201
  let idle := s.isRetired k p || (s.inTest k p && (s.twin (Report.of (spanUnit k p) code)).isNone)
  if corrected then
    if s.inGf || s.isRetired k p then .next s else .next (s.log (Report.of (spanUnit k p) (code + 2)))
  else if s.inGf || idle then .next s else .next (s.spanFault k p code none).st

/-- SPAN_HANG (R372): a span that serves a granted frame reached no pier in time. On a span that an injected fault of this cycle took
out of service it is recorded as R385 says. -/
def execSpanHang (k : SpanKind) (i : Fin 18) (s : State) : Res :=
  let p := i.val
  let code := match k with | .enc => 0x0102 | .dec => 0x0202
  let runs := match s.logicalOf k p with
    | some l => (s.struck k l).any fun f => f.stage == .granted
    | none => false
  if s.inGf then .next s
  else if s.inTest k p then
    .next (if (s.twin (Report.of (spanUnit k p) code)).isSome then (s.spanFault k p code none).st else s)
  else if !runs then .next s
  else .next (s.spanFault k p code none).st

/-- Frames of the index whose course was to end at its next pier end there: their gang's next decision cannot come
from the work that was lost (R374). -/
def State.endStruck (s : State) (k : SpanKind) (l : Nat) (p : Frame → Bool) : State :=
  (s.span.frames.filter fun f => f.kind == k && (groupIdx f.group.1 f.group.2).contains l && p f).foldl
    (fun st f => st.endNow f.id (f.abortAt.getD 0x20)) s

/-- A granted frame that is to end at its next pier. -/
def Frame.ending (f : Frame) : Bool := f.stage == .granted && f.abortAt.isSome

/-- SPARE_TAKEOVER (R373): the lowest available spare takes the index, with its reservations and claims. -/
def execSpareTakeover (k : SpanKind) (logical : Fin 16) (s : State) : Res :=
  let l := logical.val
  if s.inGf || !s.spareDue k l then .next s
  else match s.spares k with
    | [] => .next s
    | p :: _ =>
      let s1 := s.setSpanMap k ((s.spanMap k).put l p)
      let s2 := { s1 with span := { s1.span with waiting := s1.span.waiting.filter fun w => w != (k, l) } }
      .next ((s2.endStruck k l Frame.ending).rehomeLost k)

/-- A span failed its self-test in place (R373, R374): the frames that waited for it end, and a spare takes the index
or the capacity is reduced (R104). -/
def State.failInPlace (s : State) (k : SpanKind) (l seq : Nat) : State :=
  let s1 := s.endStruck k l fun f => f.awaitsReplay || f.ending
  if 0 < s1.sparesLeft k then (s1.awaitSpare k l).setOutcome seq 4
  else
    let s2 := ((s1.unmap k l).setOutcome seq 5).setRegB Reg.capStatus 0 true
    (s2.log (Report.of (0x0A00 + kindIx k) 0x0A03)).rehome k

/-- SPAN_SELF_TEST_END (R373). -/
def execSpanSelfTestEnd (k : SpanKind) (i : Fin 18) (pass : Bool) (s : State) : Res :=
  let p := i.val
  match s.span.testing.find? fun t => t.kind == k && t.phys == p with
  | none => .next s
  | some t =>
    if s.inGf then .next s
    else
      let s1 := { s with span := { s.span with testing := s.span.testing.filter fun u => !(u.kind == k && u.phys == p) } }
      if pass then
        match t.inPlace with
        | some l => .next (((s1.setOutcome t.seq 2).endStruck k l Frame.ending).rehomeLost k)
        | none => .next (s1.setOutcome t.seq 3)
      else
        let s2 := { s1 with span := { s1.span with retired := s1.span.retired ++ [(k, p)] } }
        match t.inPlace with
        | some l => .next (s2.failInPlace k l t.seq)
        | none => .next (s2.setOutcome t.seq (if t.spare then 6 else 4))

/-- No other frame's work stands before the replay on the gang (R375). -/
def State.gangFree (s : State) (f : Frame) : Bool :=
  let own := groupKey f.kind f.group.1 f.group.2
  let held := match (s.group own).holder with | some h => h == f.id | none => true
  held && !s.span.groups.any fun (e : Nat × Group) =>
    e.1 != own && e.2.holder.isSome && e.1 / 64 == kindIx f.kind && overlap f.group.1 f.group.2 (e.1 / 16 % 4) (e.1 % 16)

/-- DETOUR_REPLAY (R375): a faulted frame restarts on its gang once every index of it serves; a holder's replay
follows the tail frame's. -/
def execDetourReplay (frame : Nat) (s : State) : Res :=
  match s.frame? frame with
  | none => .next s
  | some f =>
    if s.inGf || !f.awaitsReplay || !s.groupServes f.kind f.group.1 f.group.2 || !s.gangFree f then .next s
    else
      let g := { (if f.decode then { f with staged := s.sourceBytes f } else s.readHints (s.session f.sess) f) with stage := .granted }
      let s1 := (s.setFrame g).keepGang f
      .next ((if f.decode then s1.fetchSource g else s1).bumpSat Reg.detours 0 32 1)

-- Piers -------------------------------------------------------------------------------------------------------------------

/-- A parity error on a word that a frame's writer had not committed to flow `fl` (R249, code 0x0702): a contained fault
of the frame. -/
def State.uncommittedFault (s : State) (fl : Nat) (f : Frame) (o : Origin) : Recorded :=
  let r0 := reportOf (0x0700 + s.flowSched fl) 0x0702 o
  let r := { s.naming r0 [f] with detail := fl, reaction := s.frameReaction [f] false 0 }
  let s1 := s.bumpSat Reg.parityErrors 0 32 1
  if s.classOf r ≠ 1 then s1.report r
  else s1.merging r true fun st => let x := st.report r; { x with st := x.st.frameFaults [f] false }

/-- PIER_REACHED (R172): what the span's lanes made of its row. With `parityError` a word of the frame in a tail landing was damaged before its commit (R249); a
frame past its last pier can still meet that, and nothing else, here. -/
def execPierReached (frame : Nat) (member : Fin 4) (a : Lane) (b : Option Lane) (parityError : Bool) (s : State) : Res :=
  match s.frame? frame with
  | none => .next s
  | some f =>
    let step := ((f.members[member.val]?).map (·.step)).getD 0
    if s.inGf || f.decode then .next s
    else if parityError then
      if f.stage == .granted || f.stage == .tail then .next (s.uncommittedFault (flowId f.sess step) f none).st else .next s
    else if f.stage != .granted then .next s
    else match s.pierAt f member.val a b with
      | none => .next s
      | some (false, g) => .next (s.setFrame g)
      | some (true, g) => .next (State.settlePiers (g.piers.length + 1) s g)

-- Vestibules and Mezzanines ----------------------------------------------------------------------------------------------

/-- A contained fault of a Vestibule (Table 17-3 code 0x0301): every frame with a context is conditioned again, and one
that has been granted suffers a frame fault. -/
def State.vbFault (s : State) (n : Nat) (o : Origin) : Recorded :=
  let r := reportOf (0x0300 + n) 0x0301 o
  if s.classOf r ≠ 1 then s.report r
  else s.merging r false fun s =>
    let fs := (s.vbFrames n).filter Frame.vbCtx
    let hit := fs.filter fun f => f.stage == .granted || f.awaitsReplay
    let x := s.report { s.naming r (hit ++ fs) with reaction := s.frameReaction hit false 0 }
    let s1 := fs.foldl (fun st f => st.setFrame (st.readHints (st.session f.sess) { f with condRows := 0, copies := [], analysis := [] })) x.st
    { x with st := s1.frameFaults hit false }

/-- VESTIBULE_CHECK_FAILED (R372). -/
def execVestibuleCheckFailed (n : Fin 4) (s : State) : Res :=
  if s.inGf then .next s else .next (s.vbFault n.val none).st

/-- A frame's analysis is discarded (0x0401): its rate control takes the Interactive inputs. -/
def State.dropAnalysis (s : State) (f : Frame) : State :=
  let x := s.session f.sess
  (s.setFrame { f with noAnalysis := true, cost := none, rowCosts := [] }).setSession f.sess
    { x with costs := x.costs.filter fun c => c.1 != f.encSeq }

/-- A fault of a Mezzanine on a frame (Table 17-3 code 0x0401): the analysis is discarded, or, escalated, the Mezzanine
is withdrawn until the next device reset. -/
def State.mzFault (s : State) (n : Nat) (f : Option Frame) (o : Origin) : Recorded :=
  let r := s.naming (reportOf (0x0400 + n) 0x0401 o) f.toList
  let cls := s.classOf r
  let x := s.report r
  if cls ≥ 2 then x
  else
    let s1 := match f with
      | some g => x.st.dropAnalysis g
      | none => x.st
    if cls = 1 && !s1.span.mzOut.contains n then { x with st := { s1 with span := { s1.span with mzOut := s1.span.mzOut ++ [n] } } }
    else { x with st := s1 }

/-- MEZZANINE_CHECK_FAILED (R372): the Mezzanine was working on the frame. -/
def execMezzanineCheckFailed (n : Fin 4) (frame : Nat) (s : State) : Res :=
  match s.frame? frame with
  | none => .next s
  | some f =>
    if s.inGf || f.decode || (s.session f.sess).vb != some n.val || s.span.mzOut.contains n.val || f.isGranted then .next s
    else .next (s.mzFault n.val (some f) none).st

/-- The frame a Mezzanine works on: the oldest conditioned one of its sessions without an analysis. -/
def State.analysing (s : State) (n : Nat) : Option Frame :=
  (s.vbFrames n).find? fun f => f.conditioned && f.cost.isNone && !f.noAnalysis && !f.isGranted

end Sys2Proof.Machine
end

