-- ==== Sys2Proof/Machine/MemCtl.lean ====
section
/-! DEFINITION. The memory controllers (R263–R284): arbitration, write kinds and combining, refresh and scrub,
self-refresh, frozen members, rebuild and lost data. Bytes move where the command that asks for them says; what
stands here is what the controllers do about them. -/

namespace Sys2Proof.Machine

-- Places -----------------------------------------------------------------------------------------------------------

/-- Page of a group's in-group page under a map: the inverse of Table 12-2. -/
def pageOf (amap g m : Nat) : Nat :=
  if amap = 2 then 768 * (m / 32) + 32 * g + m % 32
  else if amap = 3 then 24 * m + (g + 24 - 5 * m % 24) % 24
  else 24 * m + g

/-- Device address of a group's stripe `t` under a map. -/
def stripeAddr (amap g t : Nat) : Nat := pageOf amap g (t / 64) * 65536 + t % 64 * 1024

/-- Stripes of a group. -/
def stripesPerGroup : Nat := 2097152

/-- MEMBER_OUT of a group: the member that is out, 7 for none. -/
def State.memberOut (s : State) (g : Nat) : Nat := s.regF (Reg.sgStatus g) 26 3

/-- POINTER of a group's rebuild. -/
def State.pointer (s : State) (g : Nat) : Nat := s.regF (Reg.sgRebuild g) 0 22

/-- The member is unavailable at a stripe: frozen, or failed and not yet rebuilt there (R278). -/
def State.unavailable (s : State) (g t m : Nat) : Bool :=
  s.memberOut g == m && match s.sgState g with
    | 1 => true
    | 2 => decide (s.pointer g ≤ t)
    | 3 => true
    | _ => false

/-- SPARES_LEFT of a stack. -/
def State.sparesOf (s : State) (n : Nat) : Nat := s.regF (Reg.stackStatus n) 28 2

/-- Pseudo-channel number, within its stack, of a member. -/
def State.memberPc (s : State) (g m : Nat) : Nat := s.regF (Reg.sgStatus g) (5 * m) 5

/-- A report of a group's fault on a line (R372). -/
def memReport (g code addr : Nat) (o : Option (Nat × Nat)) : Report :=
  let r := match o with
    | none => Report.of (0x0800 + g) code
    | some (cls, fid) => { Report.of (0x0800 + g) code with cls, injected := true, fid := some fid }
  { r with detail := addr }

-- Freeze, diagnosis and rebuild --------------------------------------------------------------------------------------

/-- The group is NORMAL again: nothing is out, and second members' counts start anew (R276). -/
def State.groupNormal (s : State) (g : Nat) : State :=
  let s1 := ((s.setRegF (Reg.sgStatus g) 29 3 0).setRegF (Reg.sgStatus g) 26 3 7).setRegB (Reg.sgRebuild g) 31 false
  { s1 with mc := { s1.mc with second := s1.mc.second.filter fun e => e.1 / 8 != g } }

/-- The group rebuilds onto the stack's next spare, or none is left and it is AT_RISK: reported, and the free
buffers in it are retired (R263, R276, R277, R280, R296). -/
def State.replaceMember (s : State) (g addr : Nat) : State :=
  let n := stackOf g
  let m := s.memberOut g
  let seq := s.mc.freezeSeq.get g 0
  let left := s.sparesOf n
  if 0 < left then
    let s1 := (s.setRegF (Reg.stackStatus n) 28 2 (left - 1)).setRegF (Reg.sgStatus g) (5 * m) 5 (32 - left)
    ((s1.setRegF (Reg.sgStatus g) 29 3 2).setReg (Reg.sgRebuild g) 0x80000000).setOutcome seq 4
  else
    let s1 := ((s.setRegF (Reg.sgStatus g) 29 3 3).setReg (Reg.sgRebuild g) 0).setOutcome seq 5
    ((s1.log (memReport g 0x0803 addr none)).setRegB Reg.capStatus 1 true).retireFree

/-- OUTCOME of the capture of a freeze of the group that still runs. -/
def State.diagOutcome (s : State) (g o : Nat) : State :=
  let n := stackOf g
  if s.regB (Reg.diagStat n) 31 && s.regF (Reg.diagLoc n) 0 5 == g && s.regF (Reg.diagStat n) 27 3 == 0 then
    s.setRegF (Reg.diagStat n) 27 3 o
  else s

/-- The capture of a freeze (R274, Table 12-6), its place under the map that holds there. -/
def State.captureFreeze (s : State) (g m amap t addr req sev freezes : Nat) (synd : Word) : State :=
  let n := stackOf g
  if s.regB (Reg.diagStat n) 31 then s.raiseB (Reg.diagStat n) 30
  else
    let (bg, bank, col, row) := bankPlace amap t
    let s1 := (s.mark (Reg.diagStat n) 0x80000000).setReg (Reg.diagStat n)
      (at_ 31 1 ||| (s.reg (Reg.diagStat n) &&& 0x40000000) ||| at_ 24 sev ||| at_ 16 req ||| at_ 8 (min 255 freezes) ||| at_ 0 (s.memberPc g m))
    let s2 := s1.setReg (Reg.diagLoc n)
      (at_ 16 row ||| at_ 13 bank ||| at_ 11 bg ||| at_ 9 col ||| at_ 7 (addr / 64 % 4) ||| at_ 0 g)
    let s3 := ((s2.setReg (Reg.diagAddrLo n) (loW addr)).setReg (Reg.diagAddrHi n) (hiW addr)).setReg (Reg.diagSynd n) synd
    ((s3.setReg (Reg.diagTimeLo n) (loW s.now)).setReg (Reg.diagTimeHi n) (hiW s.now)).raise 967

/-- A member of a NORMAL group is frozen under a fault of class `cls` whose entry is `seq`, 0 where a more severe fault of the unit
was reported in its stead (R273–R275, R377): captured, and failed at once on its eighth freeze or when the fault escalates. The
spec gives the capture of an escalated freeze no outcome: a free value stands there. -/
def State.freezeMember (s : State) (g m amap t addr req sev : Nat) (synd : Word) (cls seq : Nat) : State :=
  let pc := 32 * stackOf g + s.memberPc g m
  let count := s.mc.freezes.get pc 0 + 1
  let s1 := ((s.setRegF (Reg.sgStatus g) 29 3 1).setRegF (Reg.sgStatus g) 26 3 m).bumpSat Reg.diagCount 0 16 1
  let mc := { s1.mc with freezes := s1.mc.freezes.put pc count, freezeSeq := s1.mc.freezeSeq.put g seq,
                         freezeAt := s1.mc.freezeAt.put g addr }
  let s2 := { s1 with mc }
  let s3 := s2.captureFreeze g m amap t addr req sev count synd
  if 1 ≤ cls then
    let (w, s4) := s3.takeFree
    (s4.diagOutcome g (fld w 0 3)).replaceMember g addr
  else if 8 ≤ count then (s3.diagOutcome g 5).replaceMember g addr
  else s3

/-- A member of a NORMAL group is frozen, and the freeze is reported (R273, Table 17-3 code 0x0802). -/
def State.freeze (s : State) (g m amap t addr req sev : Nat) (synd : Word) (o : Option (Nat × Nat)) : Recorded :=
  let r := memReport g 0x0802 addr o
  let cls := s.classOf r
  let x := s.report { r with outcome := 1 }
  if cls ≥ 2 then { x with st := x.st.setOutcome x.seq 0 }
  else { x with st := x.st.freezeMember g m amap t addr req sev synd cls x.seq }

/-- DIAGNOSIS_END (R275, R276). -/
def execDiagnosisEnd (g : Fin 24) (o : DiagOutcome) (s : State) : Res :=
  let n := g.val
  if s.sgState n ≠ 1 then .next s
  else
    let seq := s.mc.freezeSeq.get n 0
    match o with
    | .clean => .next (((s.diagOutcome n 1).groupNormal n).setOutcome seq 2)
    | .rewritten => .next (((s.diagOutcome n 2).groupNormal n).setOutcome seq 2)
    | .rowFault => .next ((s.diagOutcome n 3).replaceMember n (s.mc.freezeAt.get n 0))
    | .memberFault => .next ((s.diagOutcome n 4).replaceMember n (s.mc.freezeAt.get n 0))

/-- Frames granted with a Gallery slot in a step's list (R212). -/
def State.readersOf (s : State) (i k z : Nat) : List Frame :=
  (s.framesOf i).filter fun f => f.isGranted && (f.refs.getD k []).any fun r => r.slot == z

/-- The frame without a slot in a step's list. -/
def Frame.without (f : Frame) (k z : Nat) : Frame :=
  { f with refs := f.refs.modify k fun l => l.filter fun r => r.slot != z }

/-- A visible slot that can no longer be read leaves the visible set (R212). In an encode session every step's next
granted frame is intra, and the frames granted with the slot lose it from their lists and are replayed or end
ABORTED; those that wait for a replay only lose it. In a decode session the slot is a missing reference. -/
def State.losePicture (s : State) (i k z : Nat) : State :=
  let x := s.session i
  if !(x.vis.get k []).any (fun r => r.slot == z) then s
  else
    let y := { x with vis := x.vis.put k ((x.vis.get k []).filter fun r => r.slot != z), nextIntra := x.nextIntra || x.isEnc }
    let fs := (s.readersOf i k z).map fun f => f.without k z
    let s1 := fs.foldl (fun st f => st.setFrame f) (s.setSession i y)
    if x.isEnc then s1.frameFaults (fs.filter fun f => f.stage == .granted || f.stage == .tail) false else s1

/-- A copy set damaged before its frame's crossing: the Vestibule conditions the frame again (R121, R123). -/
def State.loseCopies (s : State) (id : Nat) : State :=
  match s.frame? id with
  | none => s
  | some f =>
    match f.decode, (s.session f.sess).vb with
    | false, some n => (s.setFrame { f with condRows := 0, conditioned := false, copies := [], analysis := [] }).feedVb n
    | _, _ => s

/-- What lay in lost lines is treated as its chapter says (R279). -/
def State.loseObject (s : State) : MemObject → State
  | .picture i k z => s.losePicture i.val k.val z
  | .copySet id => s.loseCopies id
  | .flight f num byte => s.poisonWord f.val num byte

/-- The session of an object above the pools. -/
def State.objectSession (s : State) : MemObject → Option Nat
  | .picture i _ _ => some i.val
  | .copySet id => (s.frame? id).map (·.sess)
  | .flight f _ _ => some (f.val / 8)

/-- The report names the session of the first object (Table 17-4). -/
def State.namingObject (s : State) (r : Report) (os : List MemObject) : Report :=
  match os.findSome? s.objectSession with
  | some i => { r with session := some i, fid := if r.injected then r.fid else some (s.session i).owner }
  | none => r

/-- What a loss of lines reports: the loss, the second member's 64th line, the more severe fault of the unit (R276), or nothing where
the unit has reported a fault in this cycle (R377). -/
inductive LossReport where
  | loss
  | fatal
  | told
deriving DecidableEq, Repr

/-- Lines of two units of one stripe are lost (R279): poisoned, and reported; `os` is what they held above the pools. -/
def State.loseLines (s : State) (g t addr : Nat) (ms : List Nat) (os : List MemObject) (rep : LossReport) (o : Option (Nat × Nat)) :
    Recorded :=
  let base := addr / 1024 * 1024
  let line := addr / 64 % 4 * 64
  let lost := (List.range 4).filter fun d => ms.contains (unitMember t d)
  let held := if s.poolsEnd ≤ base then os else []
  let r := { s.namingObject (memReport g 0x0804 addr o) held with reaction := 3 }
  let poison (x : Recorded) : Recorded :=
    let s1 := { x.st with mem := lost.foldl (fun m d => m.poison (base + 256 * d + line)) x.st.mem }
    { x with st := held.foldl State.loseObject s1 }
  match rep with
  | .loss => s.merging r true fun st => poison (st.report r)
  | .fatal => poison (s.report { memReport g 0x0805 addr o with reaction := 4 })
  | .told => poison ⟨s, 0, 0, false⟩

/-- Uncorrectable lines of a second member, with this one, while the group is not NORMAL (R276). -/
def State.secondCount (s : State) (g m : Nat) : Nat := s.mc.second.get (g * 8 + m) 0 + 1

/-- A second member returns an uncorrectable line while the group is not NORMAL (R276). -/
def State.countSecond (s : State) (g m : Nat) : State :=
  { s with mc := { s.mc with second := s.mc.second.put (g * 8 + m) (s.secondCount g m) } }

/-- The map of a place (R265): 3 where a Gallery slot lies, else AMAP. -/
def State.mapOf (s : State) (os : List MemObject) : Nat :=
  if os.any fun o => match o with | .picture _ _ _ => true | _ => false then 3 else s.amap

/-- A read finds a line of member `m` that the line code cannot correct (R273, R276, R279); `told` where the unit has reported a
fault in this cycle. -/
def State.uncorrectable (s : State) (g m t addr req sev : Nat) (synd : Word) (os : List MemObject) (told : Bool) : State :=
  let out := s.memberOut g
  let full := s.secondCount g m == 64
  let rep : LossReport := if full then .fatal else if told then .told else .loss
  match s.sgState g with
  | 0 => (s.freeze g m (s.mapOf os) t addr req sev synd none).st
  | 2 =>
    if m = out then
      if s.pointer g ≤ t then s else s.replaceMember g addr
    else
      let s1 := s.countSecond g m
      if s.unavailable g t out then (s1.loseLines g t addr [m, out] os rep none).st
      else if full then s1.log { memReport g 0x0805 addr none with reaction := 4 }
      else s1
  | _ => if m = out then s else ((s.countSecond g m).loseLines g t addr [m, out] os rep none).st

/-- A read finds lines of two members, each with its address, in one MCLK cycle: of a NORMAL group the lower member is frozen, and
the stripe has lost both units, which is the fault that is reported (R273, R279, R377). -/
def State.twoUncorrectable (s : State) (g t : Nat) (p q : Nat × Nat) (req sev : Nat) (synd : Word) (os : List MemObject) : State :=
  let (lo, hi) := if q.1 < p.1 then (q, p) else (p, q)
  if lo.1 = hi.1 then s.uncorrectable g lo.1 t lo.2 req sev synd os false
  else if s.sgState g = 0 then
    let cls := s.classOf (memReport g 0x0802 lo.2 none)
    let s1 := (s.loseLines g t hi.2 [lo.1, hi.1] os .loss none).st
    (s1.freezeMember g lo.1 (s.mapOf os) t lo.2 req sev synd cls 0).countSecond g hi.1
  else
    let (p, q) := if s.secondCount g hi.1 = 64 then (hi, lo) else (lo, hi)
    let s1 := s.uncorrectable g p.1 t p.2 req sev synd os false
    s1.uncorrectable g q.1 t q.2 req sev synd os (s1.reg Reg.headSeq != s.reg Reg.headSeq)

-- Requests -------------------------------------------------------------------------------------------------------------

/-- The request's device address: rebuild and scrub work on the group's own next stripe. -/
def State.reqAddr (s : State) (g : Nat) (r : MemReq) : Nat :=
  if r.id.val = 50 then stripeAddr (s.mapOf r.holds) g (s.pointer g)
  else if r.id.val = 51 then stripeAddr (s.mapOf r.holds) g (s.regF (Reg.scrubPos (stackOf g)) 0 22)
  else r.addr

/-- In-group stripe of a request; a Gallery slot's pages lie by map 3 (R265). -/
def State.reqStripe (s : State) (g : Nat) (r : MemReq) : Nat :=
  if r.id.val = 50 then s.pointer g
  else if r.id.val = 51 then s.regF (Reg.scrubPos (stackOf g)) 0 22
  else stripeIndex (s.mapOf r.holds) r.addr

/-- What lies above the pools is written in full stripes only (R123, R196, R244). -/
def wholeStripes (r : MemReq) : Bool := !r.write || r.holds.isEmpty || r.bytes == 1024

/-- The request can wait at the group's arbiter: it lies in one stripe of the group, its requester is neither in reset
nor gated, a rebuild runs, or the scrub is enabled and due (R282, R284). -/
def State.reqValid (s : State) (g : Nat) (r : MemReq) : Bool :=
  let id := r.id.val
  if id = 50 then s.sgState g == 2
  else if id = 51 then s.regB Reg.mcCtrl 9 && !s.mc.scrubbed.contains g
  else
    wholeStripes r && decide (1 ≤ r.bytes) && decide (r.addr % 1024 + r.bytes ≤ 1024) && decide (r.addr + r.bytes ≤ memEnd) &&
      mapGroup (s.mapOf r.holds) (r.addr / 65536) == g &&
      (if id = 48 ∨ id = 49 then !s.portInReset (id - 48)
       else if id < 36 then !s.regB (Reg.gated (id / 18)) (id % 18)
       else if id < 40 then !s.span.gatedVb.contains (id - 36)
       else if id < 44 then !s.span.gatedMz.contains (id - 40)
       else true)

/-- Priority class of a requester (Tables 12-10, 12-11). -/
def State.reqPrio (s : State) (id : Nat) : Nat :=
  let f (lo : Nat) := s.regF Reg.arbPrio lo 3
  if id < 18 then f 18 else if id < 36 then f 12 else if id < 40 then f 15 else if id < 44 then f 6
  else if id < 46 then f 3 else if id = 46 then f 9 else if id = 47 then f 21 else if id < 50 then f 0 else 0

/-- Starve count of a requester at a group. -/
def State.starveOf (s : State) (g id : Nat) : Nat := s.mc.starve.get (g * 64 + id) 0

/-- The requester a decision grants, and whether the starvation rule chose it (R283). -/
def State.chooseReq (s : State) (g : Nat) (ids : List Nat) : Option (Nat × Bool) :=
  let st (id : Nat) := s.starveOf g id
  if ids.contains 50 && decide (7 ≤ st 50) then some (50, false)
  else
    let starved := ids.filter fun id => decide (s.starveLimit Reg.mcArbCfg ≤ st id)
    if starved.isEmpty then (bestOf (ids.map fun id => (id, s.reqPrio id, st id))).map fun id => (id, false)
    else (bestOf (starved.map fun id => (id, st id, 0))).map fun id => (id, true)

-- Write kinds and combining -----------------------------------------------------------------------------------------------

/-- Lines of a stripe that a byte mask covers. -/
def maskLines (mask : Nat) : List Nat := (List.range 16).filter fun l => mask / 2 ^ (64 * l) % 2 ^ 64 != 0

/-- Every byte of the stripe is covered. -/
def fullMask (mask : Nat) : Bool := mask == 2 ^ 1024 - 1

/-- Lines read and written for one line of a partial write (Table 12-4, R278), and whether the kind is partial. -/
def State.lineCost (s : State) (g t l : Nat) : Nat × Nat × Bool :=
  let frozen := if s.sgState g = 1 then 1 else 0
  if s.unavailable g t (parityMember t) then (0, 1 + frozen, false)
  else if s.unavailable g t (unitMember t (l / 4)) then (3, 1 + frozen, false)
  else (2, 2, true)

/-- A stack's line counters move. -/
def State.countLines (s : State) (n r w : Nat) : State :=
  let s1 := s.setReg (Reg.bwRead n) (loW ((s.reg (Reg.bwRead n)).toNat + r))
  s1.setReg (Reg.bwWrite n) (loW ((s1.reg (Reg.bwWrite n)).toNat + w))

/-- The bytes of a mask are written to the stripe at `addr`: as a full stripe, which clears poison, or line by line as partial or
degraded writes (R267, R268, R278, R279). -/
def State.writeMask (s : State) (g t addr mask : Nat) : State :=
  let n := stackOf g
  if fullMask mask then
    let out := (List.range 5).any fun m => s.unavailable g t m
    { s with mem := s.mem.unpoison (addr / 1024 * 1024) 1024 }.countLines n 0 (if out && s.sgState g != 1 then 16 else 20)
  else
    (maskLines mask).foldl (fun st l =>
      let (r, w, part) := st.lineCost g t l
      let s1 := st.countLines n r w
      if part then s1.setReg (Reg.sgPartial g) (loW ((s1.reg (Reg.sgPartial g)).toNat + 1)) else s1) s

/-- Group and in-group stripe of a combining buffer: Gallery slots, written in full stripes alone, never stand in one (R196). -/
def State.combinePlace (s : State) (c : Combine) : Nat × Nat :=
  (mapGroup s.amap (c.stripe / 64), stripeIndex s.amap (c.stripe * 1024))

/-- A combining buffer is written and closed (R268). -/
def State.flushCombine (s : State) (c : Combine) : State :=
  let (g, t) := s.combinePlace c
  let s1 := { s with mc := { s.mc with combine := s.mc.combine.filter fun d => !(d.stack == c.stack && d.stripe == c.stripe) } }
  s1.writeMask g t (c.stripe * 1024) c.mask

/-- Open combining buffers of a stack. -/
def State.combining (s : State) (n : Nat) : List Combine := s.mc.combine.filter fun c => c.stack == n

/-- The stack's buffers that have been open for 64 FCLK cycles are written (R268). -/
def State.flushExpired (s : State) (n : Nat) : State :=
  ((s.combining n).filter fun c => decide (c.opened + 64 ≤ s.cyc)).foldl State.flushCombine s

/-- A partial write opens a combining buffer or joins its requester's; a full one is written, and the oldest goes when
a 33rd is needed (R268). -/
def State.combineWrite (s : State) (g id addr bytes : Nat) : State :=
  let n := stackOf g
  let bits := (2 ^ bytes - 1) * 2 ^ (addr % 1024)
  match (s.combining n).find? fun c => c.stripe == addr / 1024 && c.requester == id with
  | some c =>
    let d := { c with mask := c.mask ||| bits }
    if fullMask d.mask then s.flushCombine d
    else { s with mc := { s.mc with combine := s.mc.combine.map fun x => if x.stack == n && x.stripe == c.stripe then d else x } }
  | none =>
    let s1 := match s.combining n with
      | c :: r => if 32 ≤ r.length + 1 then s.flushCombine c else s
      | [] => s
    { s1 with mc := { s1.mc with combine := s1.mc.combine ++
      [{ stack := n, stripe := addr / 1024, requester := id, opened := s1.cyc, mask := bits }] } }

/-- A granted request's stripe is flushed from another requester's buffer first (R268). -/
def State.flushOthers (s : State) (g id addr : Nat) : State :=
  ((s.combining (stackOf g)).filter fun c => c.stripe == addr / 1024 && c.requester != id).foldl State.flushCombine s

/-- COMBINING_FLUSH (R268): 64 FCLK cycles after it opened, a buffer is written. -/
def execCombiningFlush (n : Fin 4) (stripe : Nat) (s : State) : Res :=
  match (s.combining n.val).find? fun c => c.stripe == stripe && decide (c.opened + 64 ≤ s.cyc) with
  | some c => .next (s.flushCombine c)
  | none => .next s

-- Grants -------------------------------------------------------------------------------------------------------------------

/-- One rebuild request: four units are read and the missing one goes to the spare; after the last stripe the group is
NORMAL (R276, R277). -/
def State.rebuildStripe (s : State) (g : Nat) : State :=
  let p := s.pointer g + 1
  let s1 := (s.setRegF (Reg.sgRebuild g) 0 22 p).countLines (stackOf g) 16 4
  if stripesPerGroup ≤ p then s1.groupNormal g else s1

/-- One scrub request: the stripe is read; when the stack's six groups have read it, the next stripe comes, and a pass
ends after the last (R270). -/
def State.scrubStripe (s : State) (g : Nat) : State :=
  let n := stackOf g
  let done := g :: s.mc.scrubbed
  let s1 := s.countLines n (if s.memberOut g = 7 then 20 else 16) 0
  if (List.range 6).all fun j => done.contains (6 * n + j) then
    let p := s.regF (Reg.scrubPos n) 0 22 + 1
    let wrap := decide (stripesPerGroup ≤ p)
    let passes := if wrap then s1.mc.passes.put n (s1.mc.passes.get n 0 + 1) else s1.mc.passes
    let s2 := { s1 with mc := { s1.mc with scrubbed := s1.mc.scrubbed.filter fun h => stackOf h != n, passes } }
    let all := [0, 1, 2, 3].foldl (fun m k => min m (passes.get k 0)) (passes.get 0 0)
    (s2.setRegF (Reg.scrubPos n) 0 22 (if wrap then 0 else p)).setRegF Reg.scrubPasses 0 16 (min all 65535)
  else { s1 with mc := { s1.mc with scrubbed := done } }

/-- The granted request is carried out. -/
def State.serveReq (s : State) (g : Nat) (r : MemReq) : State :=
  let id := r.id.val
  let a := s.reqAddr g r
  if id = 50 then (s.flushOthers g id a).rebuildStripe g
  else if id = 51 then (s.flushOthers g id a).scrubStripe g
  else
    let s1 := s.flushOthers g id a
    if r.write then
      if r.bytes = 1024 then s1.writeMask g (s.reqStripe g r) a (2 ^ 1024 - 1) else s1.combineWrite g id a r.bytes
    else
      let t := s.reqStripe g r
      let lines := (List.range 16).filter fun l => decide (a % 1024 / 64 ≤ l) && decide (l ≤ (a % 1024 + r.bytes - 1) / 64)
      let cost := lines.map fun l => if s.unavailable g t (unitMember t (l / 4)) then 4 else 1
      s1.countLines (stackOf g) (cost.foldl (· + ·) 0) 0

/-- Device address of line `line` of member `m`'s unit of a stripe; parity has none, and shows that line of the stripe's first unit
(log 41). -/
def lineAddr (a t m line : Nat) : Nat :=
  a / 1024 * 1024 + 64 * line + match (List.range 4).find? fun d => unitMember t d == m with
    | some d => 256 * d
    | none => 0

/-- A request of `bytes` bytes at `a` touches a line at this place of some unit. -/
def touchesLine (a bytes line : Nat) : Bool :=
  (List.range 16).any fun l => decide (a % 1024 / 64 ≤ l) && decide (l ≤ (a % 1024 + bytes - 1) / 64) && l % 4 == line

/-- What the line touched gave (R270, R273, R279); the scrub writes a corrected line, or the stripe's parity, anew. -/
def State.lineFound (s : State) (g : Nat) (r : MemReq) (a t : Nat) (f : LineOutcome) : State :=
  let n := if 50 ≤ r.id.val then 1024 else r.bytes
  match f with
  | .clean => s
  | .corrected =>
    let s1 := (s.bumpSat (Reg.sgCorrected g) 0 32 1).log (memReport g 0x0801 a none)
    if r.id.val = 51 then s1.countLines (stackOf g) 0 1 else s1
  | .uncorrectable m l sev synd =>
    if touchesLine a n l.val then s.uncorrectable g m.val t (lineAddr a t m.val l.val) r.id.val sev.toNat synd r.holds false else s
  | .twoUncorrectable m l k j sev synd =>
    if touchesLine a n l.val && touchesLine a n j.val then
      s.twoUncorrectable g t (m.val, lineAddr a t m.val l.val) (k.val, lineAddr a t k.val j.val) r.id.val sev.toNat synd r.holds
    else s
  | .parityWrong =>
    if r.id.val = 51 then (s.log (memReport g 0x0806 a none)).countLines (stackOf g) 0 4 else s

/-- Beats of a group's 128-byte port that a request takes (R282). -/
def beatsOf (r : MemReq) : Nat := if 50 ≤ r.id.val then 8 else ceilDiv r.bytes 128

/-- MEMORY_ARBITER_DECISION (R282, R283): with the group's current grant ended, one waiting request is granted and carried
out, and what its line gave is handled; a rebuild judges its stripe before its pointer moves (R279). A first request to a stack in
self-refresh runs its exit, and waits (R272). -/
def execMemoryArbiterDecision (g : Fin 24) (waiting : List MemReq) (found : LineOutcome) (s : State) : Res :=
  let n := g.val
  if decide (s.cyc < s.mc.grantEnd.get n 0) then .next s
  else
    let s0 := s.flushExpired (stackOf n)
    let ws := waiting.filter fun r => s0.reqValid n r
    let ids := (ws.map fun r => r.id.val).eraseDups
    if s.asleep (stackOf n) then .next (if ids.isEmpty then s else s.wakeStack (stackOf n))
    else
    match s0.chooseReq n ids with
    | none => .next s0
    | some (id, starved) =>
      match ws.find? fun r => r.id.val == id with
      | none => .next s0
      | some r =>
        let s1 := ids.foldl (fun st j =>
          { st with mc := { st.mc with starve := if j = id then st.mc.starve.del (n * 64 + j)
                                                  else st.mc.starve.put (n * 64 + j) (st.starveOf n j + 1) } }) s0
        let s2 := if starved then
            (((s1.raiseB Reg.mcArbCfg 31).setRegF Reg.mcArbCfg 24 5 n).setRegF Reg.mcArbCfg 16 6 id).raise 962
          else s1
        let s3 := { s2 with mc := { s2.mc with grantEnd := s2.mc.grantEnd.put n (s.cyc + beatsOf r) } }
        let judge (st : State) : State := st.lineFound n r (s0.reqAddr n r) (s0.reqStripe n r) found
        if id = 50 then
          let s4 := judge s3
          .next (if s4.sgState n == 2 && s4.pointer n == s3.pointer n then s4.serveReq n r else s4)
        else .next (judge (s3.serveReq n r))

-- Refresh ------------------------------------------------------------------------------------------------------------------

/-- Refresh intervals of a stack that have ended. -/
def State.intervals (s : State) (n : Nat) : Nat :=
  let (acc, base) := s.mc.refreshBase.get n (0, 0)
  acc + (s.time.raw - base) / s.refInterval n

/-- Postponed refreshes of a bank: at most 8 (R270). -/
def State.debt (s : State) (pc bank : Nat) : Nat := min 8 (s.intervals (pc / 32) - s.mc.paid.get (pc * 32 + bank) 0)

/-- POSTPONE_MAX shows a debt. -/
def State.showDebt (s : State) (pc bank : Nat) : State :=
  s.raisePeak (Reg.postponeMax (pc / 32)) 0 4 (s.debt pc bank)

/-- A bank is refreshed once more. A debt beyond 8 cannot have built up, so a bank that lags further counts from 8
behind. -/
def State.refresh (s : State) (pc bank : Nat) : State :=
  let paid := max (s.mc.paid.get (pc * 32 + bank) 0) (s.intervals (pc / 32) - 8)
  { s with mc := { s.mc with paid := s.mc.paid.put (pc * 32 + bank) (paid + 1) } }

/-- The stack is refreshed by its controller: trained, and not in self-refresh. -/
def State.refreshing (s : State) (n : Nat) : Bool := (s.mc.refreshBase.find n).isSome && !s.asleep n

/-- PER_BANK_REFRESH (R270): up to 8 intervals ahead of the present one. -/
def execPerBankRefresh (pc : Fin 128) (bank : Fin 32) (s : State) : Res :=
  let n := pc.val / 32
  if s.refreshing n && decide (s.mc.paid.get (pc.val * 32 + bank.val) 0 ≤ s.intervals n + 8) then
    .next ((s.showDebt pc.val bank.val).refresh pc.val bank.val)
  else .next s

/-- FORCED_REFRESH (R270): the bank carries 8 postponed refreshes and a ninth falls due. -/
def execForcedRefresh (pc : Fin 128) (bank : Fin 32) (s : State) : Res :=
  let n := pc.val / 32
  if s.refreshing n && s.debt pc.val bank.val == 8 then
    .next (((s.showDebt pc.val bank.val).refresh pc.val bank.val).bumpSat (Reg.stackStatus n) 0 16 1)
  else .next s

/-- A stack whose refreshes are counted goes on from `acc` intervals on the grid of its present interval (R270). -/
def State.regrid (s : State) (n acc : Nat) : State :=
  let i := s.refInterval n
  let base := s.mc.refreshBase
  if (base.find n).isSome then { s with mc := { s.mc with refreshBase := base.put n (acc, s.time.raw / i * i) } } else s

/-- CLKPWR.THERM.HBM_MAX shows the hottest stack (Table 18-4). -/
def State.showHottest (s : State) : State :=
  let temps := (List.range 4).map fun n => (BitVec.ofNat 8 (s.regF (Reg.hbmTemp n) 0 8)).toInt
  s.setRegF Reg.therm 8 8 ((temps.foldl max (-128)) % 256).toNat

/-- STACK_TEMPERATURE_CHANGE (R270): CLKPWR.HBM_TEMP shows the temperature, and the interval is 195 ticks from 85 °C
on. Debts stand. -/
def execStackTemperatureChange (n : Fin 4) (temp : BitVec 8) (s : State) : Res :=
  let hot := decide (85 ≤ temp.toInt)
  let s1 := (s.setReg (Reg.hbmTemp n.val) (loW temp.toNat)).showHottest
  if s.regB (Reg.stackStatus n.val) 31 = hot then .next s1
  else
    .next ((s1.setRegB (Reg.stackStatus n.val) 31 hot).regrid n.val (s.intervals n.val))

-- Self-refresh ---------------------------------------------------------------------------------------------------------------

/-- A controller can enter self-refresh (R271): no group of the stack is FROZEN or REBUILDING, no combining buffer is open, and no
request is queued: none that has lost a decision still waits (log 105). -/
def State.canSleep (s : State) (n : Nat) : Bool :=
  !s.asleep n && (s.combining n).isEmpty && !s.mc.starve.any (fun e => e.1 / 64 / 6 == n && e.2 != 0) && (List.range 6).all fun j => s.sgState (6 * n + j) != 1 && s.sgState (6 * n + j) != 2

/-- Entry into self-refresh (R271, Table 12-5): postponed refreshes are paid. -/
def State.sleepStack (s : State) (n : Nat) : State :=
  ((s.restartRefresh n).setRegB (Reg.stackStatus n) 30 true).bumpSat (Reg.srCount n) 0 16 1

/-- SELF_REFRESH_EXIT (R272). -/
def execSelfRefreshExit (n : Fin 4) (s : State) : Res := .next (s.wakeStack n.val)

-- Injected faults --------------------------------------------------------------------------------------------------------------

/-- An injected fault of a stripe group (R384). The spec names no line for it: a free value chooses the stripe and the
member. -/
def State.memFault (s : State) (g code : Nat) (o : Option (Nat × Nat)) : Recorded :=
  let (w, s0) := s.takeFree
  let t := fld w 0 21
  let m := fld w 21 11 % 5
  let a := lineAddr (stripeAddr s.amap g t) t m 0
  if code = 0x0802 && s.sgState g == 0 then s0.freeze g m s.amap t a 0 0 0 o
  else if code = 0x0802 && s.sgState g == 1 && s0.classOf (memReport g code a o) == 1 then
    let x := s0.report (memReport g code a o)
    { x with st := x.st.replaceMember g a }
  else if code = 0x0804 && s0.classOf (memReport g code a o) ≤ 1 then s0.loseLines g t a [m, s.memberOut g] [] .loss o
  else s0.report (memReport g code a o)

end Sys2Proof.Machine
end

