-- ==== Sys2Proof/Machine/Timers.lean ====
section
/-! DEFINITION. Device time and event timers (R327–R331): PTM dialogues, arming, expiry, ownership. -/

namespace Sys2Proof.Machine

-- PTM ---------------------------------------------------------------------------------------------------------------

/-- The port that SYNC_SRC.SRC names; 3 acts as 0. -/
def State.syncPort (s : State) : Option Nat :=
  match s.regF Reg.syncSrc 0 2 with
  | 1 => some 0
  | 2 => some 1
  | _ => none

/-- A dialogue can run: SRC names a port whose PTM is enabled and that is not in reset (R328, R329). -/
def State.syncRuns (s : State) : Bool :=
  match s.syncPort with
  | some n => (s.port n).ptmEn && !s.portInReset n
  | none => false

/-- Device time free-runs: no correction is in course and LOCKED is clear (R329). -/
def State.freeRun (s : State) : State :=
  ((({ s with time := { s.time with err := 0, phase := 0, ptmFails := 0 } }).setRegB Reg.syncStatus 31 false).setRegB
    Reg.syncStatus 30 false).setRegB Reg.syncStatus 29 false

/-- Synchronisation stops without a write of SYNC_SRC: LOST is set and raises source 969 (R329). -/
def State.ptmLost (s : State) : State := (s.freeRun.raiseB Reg.syncStatus 28).raise 969

/-- A port that SRC names is reset, or PTM is disabled on it (R329). -/
def State.ptmStops (s : State) (n : Nat) : State :=
  if s.syncPort = some n && (s.port n).ptmEn then s.ptmLost else s

/-- A dialogue that succeeded with error `e` (R328): device time slews, steps forward or runs at half rate. -/
def State.correct (s : State) (e : Int) : State :=
  let shown := clampI (-524287) 524287 e
  let s1 := (s.setRegF Reg.syncStatus 0 20 ((shown % 1048576).toNat)).setRegB Reg.syncStatus 31 (decide (e.natAbs ≤ 1))
  let step := decide (1000 < e)
  let slow := decide (e < -1000)
  let t := { s.time with
    now := if step then s.time.now + e.toNat else s.time.now, err := if step then 0 else e, phase := 0, ptmFails := 0 }
  let s2 := if step then s1.bumpSat Reg.syncStatus 20 8 1 else s1
  ({ s2 with time := t }.setRegB Reg.syncStatus 30 (!step && !slow && e != 0)).setRegB Reg.syncStatus 29 slow

/-- INTERVAL has passed since the last dialogue (R328); the first after a write of SYNC_SRC comes at any tick. -/
def State.syncDue (s : State) : Bool :=
  match s.time.lastSync with
  | some t => decide (t + max 1 (s.regF Reg.syncSrc 8 10) * 100000 ≤ s.time.raw)
  | none => true

/-- A dialogue that failed: with the third in a row synchronisation stops (R329). -/
def State.dialogueFailed (s : State) : State :=
  if s.time.ptmFails = 2 then { s.ptmLost with time := { s.ptmLost.time with ptmFails := 3 } }
  else if 2 < s.time.ptmFails then s
  else { s with time := { s.time with ptmFails := s.time.ptmFails + 1 } }

/-- PTM_DIALOGUE (R328, R329): the master time in nanoseconds, or none where the dialogue failed. -/
def execPtmDialogue (masterNs : Option Nat) (s : State) : Res :=
  if !s.syncRuns || !s.syncDue then .next s
  else
    let s1 := { s with time := { s.time with lastSync := some s.time.raw } }
    match masterNs with
    | some ns => .next (s1.correct ((ns / 10 : Nat) - (s.now : Int)))
    | none => .next s1.dialogueFailed

/-- PTM_ENABLE_WRITE (R329). -/
def execPtmEnableWrite (n : Fin 2) (en : Bool) (s : State) : Res :=
  if s.portInReset n.val || !s.clk.alive then .next s
  else
    let s1 := if en then s else s.ptmStops n.val
    .next (s1.setPort n.val { s1.port n.val with ptmEn := en })

/-- A write of SYNC_SRC (R329): it never sets LOST. One that an agent without SEM[0] makes is dropped (R4). -/
def State.syncSrcWrite (s : State) (a : Agent) (v : Word) : State :=
  let s0 := s.rwsWrite a Reg.syncSrc 0x3FF03 v
  if !s.holds0 a || a.isVf then s0
  else
    let s1 := { s0 with time := { s0.time with lastSync := none } }
    if s1.syncRuns then s1 else s1.freeRun

-- Event timers ---------------------------------------------------------------------------------------------------------

/-- A timer's part beside its registers. -/
def State.timer (s : State) (n : Nat) : TmrSt := s.tmr.get n TmrSt.reset

/-- The check of this tick finds the timer armed: EN, but not where a write of CMP in this tick armed it. -/
def State.timerEn (s : State) (n : Nat) : Bool := s.regB (Reg.timerCtrl n) 31 && (s.timer n).idleAt != some s.now

/-- CMP was written in this tick: that write arms the timer for the checks from the next tick on (R330). -/
def State.cmpWritten (s : State) (n : Nat) : Bool :=
  match (s.timer n).oldCmp with
  | some (t, _) => t == s.now
  | none => false

/-- CMP as the check of this tick sees it: a write in this tick applies from the next (R330). -/
def State.cmpNow (s : State) (n : Nat) : Word :=
  match (s.timer n).oldCmp with
  | some (t, w) => if t = s.now then w else s.reg (Reg.timerCmp n)
  | none => s.reg (Reg.timerCmp n)

/-- Period of a timer in ticks; 0 where it acts as one-shot (Table 14-8). -/
def State.timerPeriod (s : State) (n : Nat) : Nat :=
  let c := s.reg (Reg.timerCtrl n)
  if bit c 30 then fld c 0 20 * (if bit c 20 then 16 else 1) else 0

/-- How far device time has passed CMP, as a signed 32-bit value (R330). -/
def State.past (s : State) (n : Nat) : Int := (loW s.now - s.cmpNow n).toInt

/-- EVENT_TIMER_EXPIRY (R330): EXPIRED, the interrupt, the waiting descriptors, the wake event; then one-shot or
periodic. A write of CMP in the same tick stands and has armed the timer for the next one. -/
def execEventTimerExpiry (n : Fin 64) (s : State) : Res :=
  let k := n.val
  if !s.timerEn k || (s.timer k).doneAt == some s.now || s.past k < 0 then .next s
  else
    let p := s.timerPeriod k
    let s1 := (((s.raiseB (Reg.timerCtrl k) 29).raise (768 + k)).releaseTimer k)
    let s2 := [0, 1].foldl (fun st port =>
      if st.regB (Reg.wakeCtrl port) 27 && st.regF (Reg.wakeCtrl port) 0 6 == k then st.wakePort port else st) s1
    let s3 := { s2 with tmr := s2.tmr.put k { s2.timer k with doneAt := some s.now } }
    if s.cmpWritten k then .next s3
    else if p = 0 then .next (s3.setRegB (Reg.timerCtrl k) 31 false)
    else .next (s3.setReg (Reg.timerCmp k) (s.cmpNow k + loW (((s.past k).toNat / p + 1) * p)))

/-- The agent owns the timer (R331): its OWNER, or a control processor on 56–63. -/
def State.ownsTimer (s : State) (n : Nat) (a : Agent) : Bool :=
  let c := s.reg (Reg.timerCtrl n)
  match a with
  | .fn f => bit c 28 && fld c 21 7 == f.val
  | .cp _ => decide (56 ≤ n)

/-- The write assigns an unassigned timer, by a PF to itself or one of its VFs (R331). -/
def State.assignsTimer (s : State) (n : Nat) (a : Agent) (v : Word) : Bool :=
  match a with
  | .fn f => isPf f.val && decide (n < 56) && !s.regB (Reg.timerCtrl n) 28 && bit v 28 && mine f.val (fld v 21 7)
  | .cp _ => false

/-- A write that sets EN arms the timer from its own tick on (R330). -/
def State.armTimer (s : State) (n : Nat) : State := { s with tmr := s.tmr.put n { s.timer n with idleAt := none } }

/-- A write of TIMER_CTRL[n] (R330, R331): an assigning write binds the timer, and where it binds it to the writer the
other fields take effect too (log 43). -/
def State.timerCtrlWrite (s : State) (n : Nat) (a : Agent) (v : Word) : State :=
  let off := Reg.timerCtrl n
  let s1 := if s.assignsTimer n a v then s.setReg off ((s.reg off &&& 0xE01FFFFF) ||| (v &&& 0x1FE00000)) else s
  if s1.ownsTimer n a then
    let c := s1.reg off
    let kept := if bit v 29 && !bit (s.freshBits off) 29 then c &&& 0x1FE00000 else c &&& 0x3FE00000
    let s2 := s1.setReg off (kept ||| (v &&& 0xC01FFFFF))
    if bit v 31 then s2.armTimer n else s2
  else if s.assignsTimer n a v then s1
  else s.protoEventA a off

/-- A write of TIMER_CMP[n] by the timer's owner arms the timer and applies from the next tick (R330). -/
def State.timerCmpWrite (s : State) (n : Nat) (a : Agent) (v : Word) : State :=
  if s.ownsTimer n a then
    let idle := if s.timerEn n then (s.timer n).idleAt else some s.now
    { ((s.setReg (Reg.timerCmp n) v).setRegB (Reg.timerCtrl n) 31 true) with
      tmr := s.tmr.put n { s.timer n with oldCmp := some (s.now, s.cmpNow n), idleAt := idle } }
  else s.protoEventA a (Reg.timerCmp n)

/-- A reset of its owner frees a timer (R331). -/
def State.freeTimers (s : State) (p : Nat → Bool) : State :=
  (List.range 64).foldl (fun st n =>
    let c := st.reg (Reg.timerCtrl n)
    if bit c 28 && p (fld c 21 7) then st.setReg (Reg.timerCtrl n) (c &&& 0x601FFFFF) else st) s

end Sys2Proof.Machine
end

