-- ==== Sys2Proof/Machine/Clocks.lean ====
section
/-! DEFINITION. The clock root, CCLK steps, power cap, thermal limits and regulators (R392–R408). -/

namespace Sys2Proof.Machine

-- The root ------------------------------------------------------------------------------------------------------------

/-- PLL_STATUS.ACTIVE: 0 PLL-A, 1 PLL-B. -/
def State.activePll (s : State) : Nat := s.regF Reg.pllStatus 31 1

/-- PLL `p` is locked. -/
def State.pllLocked (s : State) (p : Nat) : Bool := s.regB Reg.pllStatus (30 - p)

/-- PLL `p` is out of standby (R395). -/
def State.pllWithdrawn (s : State) (p : Nat) : Bool := s.regB Reg.pllStatus (28 - p)

/-- REF_SEL of PLL `p`. -/
def State.refOf (s : State) (p : Nat) : Nat := s.regF (Reg.pllCtrl p) 0 2

/-- Reference `r` is present. -/
def State.refPresent (s : State) (r : Nat) : Bool := s.regB Reg.pllStatus (24 + r)

/-- A reference comes or goes; what its monitor measures against the XO, within 300 ppm, is a free value (R392,
Table 19-5). -/
def State.setRef (s : State) (r : Nat) (present : Bool) : State :=
  let s1 := s.setRegB Reg.pllStatus (24 + r) present
  if !present then s1.setReg (Reg.refPpm r) 0x8000
  else if r = 0 then s1.setReg (Reg.refPpm 0) 0
  else
    let (w, s2) := s1.takeFree
    let ppm : Int := (w.toNat % 601 : Nat) - (300 : Int)
    s2.setReg (Reg.refPpm r) (loW ((ppm % 65536).toNat))

/-- The references of R392: PLL-A's and PLL-B's, by which are present. -/
def chooseRefs (refs : BitVec 3) : Option (Nat × Nat) :=
  match (List.range 3).filter fun r => refs.getLsbD r with
  | [] => none
  | [r] => some (r, r)
  | r :: q :: _ => some (r, q)

/-- The other PLL can take the root: locked, not withdrawn, and its reference is not the one that was lost. -/
def State.standbyOk (s : State) (lost : Option Nat) : Bool :=
  let q := 1 - s.activePll
  s.pllLocked q && !s.pllWithdrawn q && lost != some (s.refOf q)

/-- The roles are exchanged; `SWITCHES` counts. -/
def State.swapRoot (s : State) : State :=
  (s.setRegF Reg.pllStatus 31 1 (1 - s.activePll)).bumpSat Reg.pllStatus 0 16 1

/-- The lost reference is the refclk of a port that is held in reset or in D3cold: a planned switch (R395). -/
def State.plannedLoss (s : State) (lost : Option Nat) : Bool :=
  match lost with
  | some (n + 1) => s.portInReset n || (s.port n).d3cold
  | _ => false

/-- The fault of a switchover (R395): escalated, the PLL that lost lock stays out of standby. -/
def State.pllFault (s : State) (p : Nat) (o : Origin) : Recorded :=
  let r := reportOf (0x0C00 + p) 0x0C01 o
  let cls := s.classOf r
  let x := s.report r
  if cls = 1 then { x with st := x.st.setRegB Reg.pllStatus (28 - p) true } else x

/-- An injected loss of lock (R384): the active PLL's moves the root to a locked standby, as a real one does. -/
def State.pllInjected (s : State) (p : Nat) (o : Origin) : Recorded :=
  if p = s.activePll && s.standbyOk none && decide (s.classOf (reportOf (0x0C00 + p) 0x0C01 o) < 2) then s.swapRoot.pllFault p o
  else s.pllFault p o

/-- The active PLL loses its reference or its lock (R394, R395). -/
def State.rootLoss (s : State) (lost : Option Nat) : State :=
  let p := s.activePll
  let ok := s.standbyOk lost
  let s1 := match lost with
    | some r => s.setRef r false
    | none => s
  let s2 := s1.setRegB Reg.pllStatus (30 - p) false
  let s3 := match lost with
    | some r => if s2.refOf (1 - p) = r then s2.setRegB Reg.pllStatus (30 - (1 - p)) false else s2
    | none => s2
  if ok then
    let s4 := s3.swapRoot
    if s4.plannedLoss lost then s4 else (s4.pllFault p none).st
  else s3.log (Report.of (0x0C00 + p) 0x0C02)

/-- REFERENCE_LOSS (R394): the active reference is missing, or the active PLL lost its lock. -/
def execReferenceLoss (missingRef : Bool) (s : State) : Res :=
  if !s.pllLocked s.activePll then .next s
  else .next (s.rootLoss (if missingRef then some (s.refOf s.activePll) else none))

/-- PLL_RELOCK (R392, R394, R396): a PLL locks to its reference, which is there. -/
def execPllRelock (p : Fin 2) (s : State) : Res :=
  if !s.clk.alive || s.pllLocked p.val || s.regF Reg.devStatus 24 4 == 0 then .next s
  else
    let r := s.refOf p.val
    let s1 := if s.refPresent r then s else s.setRef r true
    .next (s1.setRegB Reg.pllStatus (30 - p.val) true)

/-- A write of ROOT_CTRL (R396): SWITCH swaps the roles if the standby is locked. -/
def State.rootCtrlWrite (s : State) (a : Agent) (v : Word) : State :=
  if !bit v 31 then s
  else if s.holds0 a && s.standbyOk none then s.swapRoot
  else s.protoEventA a Reg.rootCtrl

/-- A write of PLL_CTRL[p] (R396, Table 18-4): the standby takes the reference and relocks; 3 is dropped; the active
PLL's is dropped and logged. -/
def State.pllCtrlWrite (s : State) (p : Nat) (a : Agent) (v : Word) : State :=
  let r := fld v 0 2
  let off := Reg.pllCtrl p
  if !s.holds0 a then (if r = s.refOf p then s else s.protoEventA a off)
  else if p = s.activePll then s.protoEventA a off
  else if r = 3 || r = s.refOf p then s
  else (s.setReg off (loW r)).setRegB Reg.pllStatus (30 - p) false

-- Steps ----------------------------------------------------------------------------------------------------------------

/-- CAP_STEP and THERM_STEP. -/
def State.capStep (s : State) : Nat := s.regF Reg.pwrStatus 28 2
def State.thermStep (s : State) : Nat := s.regF Reg.pwrStatus 26 2

/-- The step that MIN_STEP, the cap and the thermal limit call for (R399). -/
def State.wantStep (s : State) : Nat := max (min 2 (s.regF Reg.stepCtrl 0 2)) (max s.capStep s.thermStep)

/-- VDD_CORE target of a step in millivolts (Table 18-2). -/
def stepVolts (k : Nat) : Nat := if k = 0 then 750 else if k = 1 then 700 else 650

/-- VTRIM in steps of 5 mV. -/
def State.trim (s : State) : Int := (BitVec.ofNat 8 (s.regF Reg.vtrim 0 8)).toInt

/-- The core regulator is commanded to a voltage, within 0.65–0.85 V (R398, R407); disabled, it is not. -/
def State.commandVolts (s : State) (k : Nat) (trim : Int) : State :=
  if s.regB Reg.pmbCfg 0 then
    let mv := (clampI 650 850 ((stepVolts k : Int) + 5 * trim)).toNat
    { s with clk := { s.clk with vcore := mv } }.emit (.voutCommand mv)
  else s

/-- The core regulator is enabled, the step is faster, and the voltage for it was not set and confirmed, nor set 20,000
ticks ago (R398). -/
def State.awaitsVolts (s : State) (k : Nat) (confirmed : Bool) : Bool :=
  decide (k < s.clk.cclk) && s.regB Reg.pmbCfg 0 && match s.clk.volts with
    | some (j, t) => !(j == k && (confirmed || decide (t + 20000 ≤ s.now)))
    | none => true

/-- The regulator is set for a faster step, once (R398). -/
def State.setVolts (s : State) (k : Nat) : State :=
  if s.clk.volts.map (·.1) = some k then s
  else
    let s1 := s.commandVolts k s.trim
    { s1 with clk := { s1.clk with volts := some (k, s.now) } }

/-- CCLK moves to a step: rates follow the new clock at once (R104), and source 968 is raised (R399). -/
def State.moveCclk (s : State) (k : Nat) : State :=
  let s1 := { s with clk := { s.clk with cclk := k, volts := none } }.setRegF Reg.pwrStatus 30 2 k
  ((s1.retime.rehome .enc).rehome .dec).raise 968

/-- CCLK_STEP_CHANGE (R398, R399). Toward a faster step the regulator is set first, and CCLK moves once it has confirmed
the voltage, which `confirmed` tells, or after 20,000 ticks; toward a slower step the regulator is set after CCLK has moved. -/
def execCclkStepChange (confirmed : Bool) (s : State) : Res :=
  let k := s.wantStep
  if !s.clk.alive || k = s.clk.cclk then .next s
  else if s.awaitsVolts k confirmed then .next (s.setVolts k)
  else if k < s.clk.cclk then .next (s.moveCclk k)
  else .next ((s.moveCclk k).commandVolts k s.trim)

/-- VDD_CORE_TRIM (R398): the path monitor asks for `steps` − 10 steps of 5 mV. -/
def execVddCoreTrim (steps : Fin 21) (s : State) : Res :=
  let t : Int := (steps.val : Int) - 10
  let k := match s.clk.volts with | some (j, _) => j | none => s.clk.cclk
  let mv : Int := (stepVolts k : Int) + 5 * t
  if !s.clk.alive || !s.regB Reg.pmbCfg 0 || mv < 650 || 850 < mv then .next s
  else .next ((s.setRegF Reg.vtrim 0 8 ((t % 256).toNat)).commandVolts k t)

-- Power cap and thermal limits --------------------------------------------------------------------------------------------

/-- GAIN of a cap step in units of 0.125 W (R403). -/
def capGain (k : Nat) : Nat := if k = 1 then 496 else 400

/-- The cap loop's new step, counter and CAP_UNMET (R403). -/
def capLoop (p cap step up : Nat) : Nat × Nat × Bool :=
  let (k, u) :=
    if cap < p then (min (step + 1) 2, 0)
    else if step ≠ 0 ∧ p + capGain step ≤ cap then (if up + 1 = 10 then (step - 1, 0) else (step, up + 1))
    else (step, 0)
  (k, u, k == 2 && decide (cap < p))

/-- THROTTLED follows the thermal step (R405). -/
def State.setTherm (s : State) (k : Nat) : State :=
  let s1 := (s.setRegF Reg.pwrStatus 26 2 k).setRegB Reg.pwrStatus 24 (k != 0)
  if k = 0 then s1 else { s1 with board := { s1.board with smbAlert := true } }

/-- The last event of a period, if there was one, lies at least the period back. -/
def State.periodOver (s : State) (last : Option Nat) (period : Nat) : Bool :=
  match last with
  | some t => decide (t + period ≤ s.now)
  | none => true

/-- POWER_CAP_LOOP (R403, R405): one loop tick, with the mean of EST over the last 100,000 ticks. It runs once for each
multiple of 100,000 ticks, and not before that tick (Table 01-6). -/
def execPowerCapLoop (mean : Nat) (s : State) : Res :=
  if !s.clk.alive || s.now / 100000 ≤ s.clk.loopK then .next s
  else
    let (k, up, unmet) := capLoop mean (s.regF Reg.power 16 16) s.capStep s.clk.up
    let was := s.regB Reg.pwrStatus 25
    let s1 := let t := s.setRegF Reg.pwrStatus 28 2 k
      if unmet then t.raiseB Reg.pwrStatus 25 else t.setRegB Reg.pwrStatus 25 false
    let s2 := if unmet && !was then s1.raise 968 else s1
    let s3 := if s.thermStep ≠ 0 && decide (10 ≤ s.clk.cool) then s2.setTherm (s.thermStep - 1) else s2
    let cool := if s.clk.lastTj < 100 then min 10 (s.clk.cool + 1) else 0
    .next { s3 with clk := { s3.clk with up, cool, loopK := s3.now / 100000, energy := s3.clk.energy + mean } }

/-- POWER_CAP (R404, R81; log 44: the range is judged before SEM[0]). -/
def execPowerCap (c : Ctx) (s : State) : Res :=
  .next (s.atKeystone c 0x90
    (fun p =>
      let v := (p.p 0).toNat
      [need (v == 0 || (decide (400 ≤ v) && decide (v ≤ 2880))) (badParam 0x0407 0),
       need (s.portHolds0 (portOf p.fid)) ⟨0x17, 0x0708, 0⟩])
    fun p =>
      let v := if p.p 0 = 0 then 2880 else (p.p 0).toNat
      (s.setRegF Reg.power 16 16 v).done p [loW v, 0, 0, 0])

/-- The hottest of a list of temperatures. -/
def hottest (ts : List (BitVec 8)) : Int := ts.foldl (fun m t => max m t.toInt) (-128)

/-- THERMAL_SAMPLE (R405, R406): every 1,000 ticks the 24 junction sensors are read; throttle and trip. -/
def execThermalSample (tj : List (BitVec 8)) (s : State) : Res :=
  if tj.length ≠ 24 then .fault .noSuchInstance
  else if !s.clk.alive || !s.periodOver s.clk.lastSample 1000 then .next s
  else
    let hot := hottest tj
    let byte := ((hot % 256 : Int).toNat)
    let s1 := (tj.zipIdx).foldl (fun st (t, i) => st.setReg (Reg.tsense i) (loW t.toNat)) s
    let s1a := s1.setRegF Reg.therm 24 8 byte
    let s2 := if (BitVec.ofNat 8 (s.regF Reg.therm 16 8)).toInt < hot then s1a.raiseF Reg.therm 16 8 byte else s1a
    let trip := decide (120 ≤ hot) && s.clk.hot120 && !s.board.thermTrip
    let due := match s.clk.lastRaise with | some t => decide (t + 100000 ≤ s.now) | none => true
    let up := decide (105 ≤ hot) && due && decide (s.thermStep < 2)
    let s3 := { s2 with clk := { s2.clk with lastTj := hot, hot120 := decide (120 ≤ hot), lastSample := some s.now } }
    let s4 := if up then
        (({ s3 with clk := { s3.clk with lastRaise := some s.now } }.setTherm (s.thermStep + 1)).raise 968)
      else s3
    if trip then .next ({ s4 with board := { s4.board with thermTrip := true } }.log (Report.of 0x0C06 0x0C05))
    else if up then .next (s4.log (Report.of 0x0C06 0x0C03))
    else .next s4

-- Regulators ---------------------------------------------------------------------------------------------------------------

/-- What one poll of an enabled regulator shows (R407, R408). -/
def State.pollOne (s : State) (n : Nat) (r : Option PmbReading) : State :=
  let off := Reg.pmbStatus n
  match r with
  | none =>
    let k := s.clk.noAck.get n 0 + 1
    let s1 := { s with clk := { s.clk with noAck := s.clk.noAck.put n k } }.setRegB off 31 true
    if k = 3 then s1.log (Report.of (0x0C02 + n) 0x0C04) else s1
  | some x =>
    let s1 := { s with clk := { s.clk with noAck := s.clk.noAck.put n 0 } }
    let s1a := (s1.setRegB off 31 false).setRegF off 0 16 x.statusWord.toNat
    let s2 := if x.warning then s1a.raiseB off 30 else s1a
    let s3 := ((s2.setReg (Reg.pmbVout n) (loW x.vout.toNat)).setReg (Reg.pmbIout n) (loW x.iout.toNat)).setReg
      (Reg.pmbPout n) (loW x.pout.toNat)
    if x.fault then s3.log (Report.of (0x0C02 + n) 0x0C04) else s3

/-- A poll of every enabled regulator. -/
def State.poll (s : State) (r : List (Option PmbReading)) : State :=
  (r.zipIdx).foldl (fun st (x, n) => if s.regB Reg.pmbCfg n then st.pollOne n x else st) s

/-- PMBUS_POLL (R407): every 10,000,000 ticks. -/
def execPmbusPoll (r : List (Option PmbReading)) (s : State) : Res :=
  if r.length ≠ 4 then .fault .noSuchInstance
  else if !s.clk.alive || !s.periodOver s.clk.lastPoll 10000000 then .next s
  else .next ({ s with clk := { s.clk with lastPoll := some s.now } }.poll r)

/-- PMB_ALERT (R437): an extra poll of every enabled regulator. -/
def execPmbAlert (r : List (Option PmbReading)) (s : State) : Res :=
  if r.length ≠ 4 then .fault .noSuchInstance else if !s.clk.alive then .next s else .next (s.poll r)

-- Gating and power states ----------------------------------------------------------------------------------------------------

/-- Every active span, Vestibule and Mezzanine is power-gated. -/
def State.allGated (s : State) : Bool :=
  ([SpanKind.enc, .dec].all fun k => (s.spanMap k).all fun e => s.regB (Reg.gated (kindIx k)) e.2) &&
    [0, 1, 2, 3].all fun n => s.span.gatedVb.contains n && s.span.gatedMz.contains n

/-- PWR_STATUS.STATE follows the gates (Table 18-3); the 100,000 ticks before DEEP_IDLE count from IDLE's start. -/
def State.syncPower (s : State) : State :=
  let st := if s.clk.inDeep then 2 else if s.allGated then 1 else 0
  let s1 := if st = 1 && s.regF Reg.pwrStatus 22 2 ≠ 1 then { s with clk := { s.clk with quietSince := s.now } } else s
  s1.setRegF Reg.pwrStatus 22 2 st

/-- A reservation, a slot or a grant of the last 100,000 ticks keeps a logical span awake (R400). -/
def State.spanNeeded (s : State) (k : SpanKind) (l : Nat) : Bool :=
  let homes := (s.admittedOf k none).any fun e => match e.2.home with
    | some (lg, i) => (groupIdx lg i).contains l
    | none => false
  let slots := (List.range 128).any fun n =>
    let w := s.span.slots.get n (zeros 3)
    slotValid w && slotKind w == k && (groupIdx (slotLog w) (slotGroup w)).contains l
  let grants := s.span.groups.any fun (e : Nat × Group) =>
    e.1 / 64 == kindIx k && (groupIdx (e.1 / 16 % 4) (e.1 % 16)).contains l &&
      (e.2.holder.isSome || decide (s.now < e.2.idleSince + 100000))
  homes || slots || grants

/-- A burst row waits for a decode span (R229). -/
def State.burstWants (s : State) (l : Nat) : Bool := s.span.frames.any fun f => f.burst.isSome && f.peer == some l && f.length != 0

/-- A session is bound to a Vestibule and Mezzanine pair. -/
def State.pairBound (s : State) (n : Nat) : Bool := s.sess.any fun e => e.2.admitted && e.2.vb == some n

/-- SPAN_POWER_GATE (R400). -/
def execSpanPowerGate (u : GateUnit) (s : State) : Res :=
  if !s.clk.alive then .next s
  else match u with
    | .span k l =>
      match s.physOf k l.val with
      | some p =>
        if s.spanNeeded k l.val || s.inTest k p || s.replayDue k 0 l.val then .next s
        else .next ((s.setRegB (Reg.gated (kindIx k)) p true).syncPower)
      | none => .next s
    | .vestibule n =>
      if s.pairBound n.val || !(s.vbFrames n.val).isEmpty || s.span.gatedVb.contains n.val then .next s
      else .next ({ s with span := { s.span with gatedVb := s.span.gatedVb ++ [n.val] } }.syncPower)
    | .mezzanine n =>
      if s.pairBound n.val || !(s.vbFrames n.val).isEmpty || s.span.gatedMz.contains n.val then .next s
      else .next ({ s with span := { s.span with gatedMz := s.span.gatedMz ++ [n.val] } }.syncPower)

/-- UNIT_WAKE (R400): a unit that admission or a burst row asks for is ungated. -/
def execUnitWake (u : GateUnit) (s : State) : Res :=
  if !s.clk.alive then .next s
  else match u with
    | .span k l =>
      let wanted := (s.admittedOf k none).any (fun e => match e.2.home with
        | some (lg, i) => (groupIdx lg i).contains l.val
        | none => false) || (k == .dec && s.burstWants l.val)
      match s.physOf k l.val with
      | some p => if wanted then .next ((s.setRegB (Reg.gated (kindIx k)) p false).syncPower) else .next s
      | none => .next s
    | .vestibule n =>
      if s.pairBound n.val then .next ({ s with span := { s.span with gatedVb := s.span.gatedVb.filter fun m => m != n.val } }.syncPower)
      else .next s
    | .mezzanine n =>
      if s.pairBound n.val then .next ({ s with span := { s.span with gatedMz := s.span.gatedMz.filter fun m => m != n.val } }.syncPower)
      else .next s

/-- Every function of both ports is out of D0 (Table 18-3): in D3hot, or its port in reset. -/
def State.outOfD0 (s : State) : Bool :=
  (List.range 128).all fun f => !s.fnExists f || s.portInReset (portOf f) || (s.fn f).d3hot

/-- No Viaduct channel is RUNNING or WAITING. -/
def State.dmaQuiet (s : State) : Bool := s.dma.all fun e => e.2.state != 1 && e.2.state != 2

/-- The conditions of DEEP_IDLE hold, and have held for 100,000 ticks (Table 18-3). -/
def State.deepReady (s : State) : Bool :=
  s.clk.alive && !s.clk.inDeep && s.regF Reg.pwrStatus 22 2 == 1 && s.outOfD0 && s.dmaQuiet && s.sec.write.isNone &&
    decide (s.clk.quietSince + 100000 ≤ s.now)

/-- SELF_REFRESH_ENTRY (R271): the power manager asks for it on the way into DEEP_IDLE. -/
def execSelfRefreshEntry (n : Fin 4) (s : State) : Res :=
  if s.deepReady && s.canSleep n.val then .next (s.sleepStack n.val) else .next s

/-- DEEP_IDLE_ENTRY (Table 18-3): the IC is saved and all four stacks are in self-refresh. -/
def execDeepIdleEntry (s : State) : Res :=
  if s.deepReady && [0, 1, 2, 3].all (fun n => s.asleep n || s.canSleep n) then
    let s1 := [0, 1, 2, 3].foldl (fun st n => if st.asleep n then st else st.sleepStack n) s
    .next ({ s1 with ic := { s1.ic with gated := true }, clk := { s1.clk with inDeep := true } }.syncPower)
  else .next s

/-- The cause can end DEEP_IDLE (Table 18-3): a wake needs a caught event that wakes the IC (R321). -/
def State.endsDeep (s : State) (c : DeepExit) : Bool :=
  match c with
  | .toD0 f => s.fnLive f.val && (s.fn f.val).d3hot
  | .perstDeassert _ => true
  | .wake => s.ic.caught.any s.wakesIc
  | .pldmType5 => true

/-- DEEP_IDLE_EXIT (Table 18-3, R272, R402): the device is in IDLE with its stacks awake; a configuration write to D0
completes now. -/
def execDeepIdleExit (cause : DeepExit) (s : State) : Res :=
  if !s.clk.inDeep || !s.endsDeep cause then .next s
  else
    let s1 := [0, 1, 2, 3].foldl State.wakeStack { s with clk := { s.clk with inDeep := false, quietSince := s.now } }
    let s2 := s1.setRegF Reg.pwrStatus 22 2 1
    match cause with
    | .toD0 f => .next (s2.returnFn f.val)
    | _ => .next s2

end Sys2Proof.Machine
end

