-- ==== Sys2Proof/Machine/Queues.lean ====
section
/-! DEFINITION. Queues and packets (R64–R90, R334, R441): doorbells, fetch, the checks of Table 04-7, dispatch,
completion writes, and the packets that only read the device: NOP, DEV_QUERY, CODE_STATUS. -/

namespace Sys2Proof.Machine

-- Doorbells ------------------------------------------------------------------------------------------------------

/-- The queue whose doorbell a function's BELLWIN offset is (R43): a PF's by id, a VF's by slot. -/
def State.bellQueue (s : State) (fid off : Nat) : Option Nat :=
  let k := off / 8
  if isPf fid then
    if k < 8192 && (s.queue k).ty != 0 && (s.queue k).fid == fid then some k else none
  else (s.qs.tbl.find? fun e => e.2.ty != 0 && e.2.fid == fid && e.2.dbSlot == k).map (·.1)

/-- A doorbell dropped under R75: counted, and logged with the queue. -/
def State.dropBell (s : State) (fid q : Nat) : State :=
  let x := s.queue q
  (s.setQueue q { x with dbDrops := satInc 16 x.dbDrops }).protoEvent fid q

/-- Entries of a ring in device memory from one index up to another are submitted: the outputs of its decode packets are undefined from
here on (R33). -/
def State.submitRing (s : State) (q a b : Nat) : State :=
  let x := s.queue q
  if !x.mem then s
  else (List.range ((b + x.size - a) % x.size)).foldl (fun st k =>
    let slot := (a + k) % x.size
    st.undefinePacket { id := ringId q slot, q, fid := x.fid, words := st.loadWs (x.base + 64 * slot) 16, state := .fetched, mark := 0,
                        mute := false }) s

/-- A doorbell write that reached its queue (R70, R75, R441). -/
def State.ringBell (s : State) (fid q idx : Nat) : State :=
  let x := s.queue q
  let around (a : Nat) := (a + x.size - x.head) % x.size
  if !x.en || decide (x.size ≤ idx) then s.dropBell fid q
  else if x.ty = 2 then
    if around x.tail < around idx then s.dropBell fid q else s.setQueue q { x with head := idx }
  else (s.setQueue q { x with tail := idx, fetchErr := false }).submitRing q x.tail idx

/-- A write to a function's doorbell window (R44, R74). -/
def State.doorbell (s : State) (f : Fid) (off size : Nat) (v : BitVec 64) : State :=
  if !s.liveFor f.val .doorbells then s
  else if !(size == 4 || size == 8) || off % 8 != 0 then s.protoEvent f.val off
  else match s.bellQueue f.val off with
    | none => s.protoEvent f.val (off / 8)
    | some q => s.ringBell f.val q (v.toNat % 65536)

/-- DOORBELL_SUBMISSION (R75): new entries are ready up to the new TAIL. -/
def execDoorbellSubmission (f : Fid) (offset size : Nat) (v : BitVec 64) (s : State) : Res := .next (s.doorbell f offset size v)

/-- DOORBELL_COMPLETION (R70): entries up to the new HEAD are free. -/
def execDoorbellCompletion (f : Fid) (offset size : Nat) (v : BitVec 64) (s : State) : Res := .next (s.doorbell f offset size v)

-- Fetch ----------------------------------------------------------------------------------------------------------

/-- Packets of a function that count toward R73: fetched and not completed, and dispatched burst pictures. -/
def State.inflightOf (s : State) (fid : Nat) : Nat :=
  (s.qs.packets.filter fun p => p.fid == fid).length +
    (s.span.frames.filter fun f => f.burst.isSome && f.isGranted && (s.session f.sess).owner == fid).length

/-- Limit of R73. -/
def fnLimit (fid : Nat) : Nat := if isPf fid then 1024 else 64

/-- Entries ready in a submission ring. -/
def Queue.readyCount (x : Queue) : Nat := (x.tail + x.size - x.head) % x.size

/-- Entries that the next batch of a queue holds (R73, R76); 0 where it is not fetched. -/
def State.batchSize (s : State) (q : Nat) : Nat :=
  let x := s.queue q
  if s.ready && !s.clk.inDeep && x.en && x.ty == 1 && !x.fetchErr && s.cqOk x.defaultCq x.fid && s.reachable x.fid && !s.fc.gfDead then
    min 8 (min x.readyCount (fnLimit x.fid - s.inflightOf x.fid))
  else 0

/-- Queues of a port with entries ready to be fetched, ascending. -/
def State.fetchable (s : State) (port : Nat) : List Nat :=
  s.qs.tbl.keysWhere fun q x => x.ty == 1 && portOf x.fid == port && s.batchSize q != 0

/-- The weighted round robin's choice on a port (R76): the queue that has the turn keeps it for WEIGHT batches, 0 acting as
1, and the next ready queue by id follows (log 65). -/
def State.fetchPick (s : State) (port : Nat) : Option Nat :=
  let ready := s.fetchable port
  let (cur, used) := s.qs.fetchTurn.get port (8191, 255)
  if ready.contains cur && decide (used < max 1 (s.queue cur).weight) then some cur
  else match ready.find? fun q => decide (cur < q) with
    | some q => some q
    | none => ready.head?

/-- Queue `q` of a port is granted a batch. -/
def State.takeTurn (s : State) (port q : Nat) : State :=
  let (cur, used) := s.qs.fetchTurn.get port (8191, 255)
  let n := if cur = q && decide (used < max 1 (s.queue q).weight) then used + 1 else 1
  { s with qs := { s.qs with fetchTurn := s.qs.fetchTurn.put port (q, n) } }

/-- Entry `k` of a ring in device memory, none where its line is poisoned (R441). -/
def State.memEntry (s : State) (x : Queue) (k : Nat) : Option (List Word) :=
  let a := x.base + 64 * ((x.head + k) % x.size)
  if s.mem.poisonIn a 64 then none else some (s.loadWs a 16)

/-- A fetched entry becomes a packet (R64, R90). -/
def State.takeEntry (s : State) (q : Nat) (w : List Word) : State :=
  let x := s.queue q
  let sess := fld (wd w 0) 16 9
  let p : Packet := { id := s.qs.nextId, q, fid := x.fid, words := w, state := .fetched, mark := (s.session sess).crossings, mute := false }
  let s1 := s.setQueue q { x with head := (x.head + 1) % x.size }
  { s1 with qs := { s1.qs with packets := s.qs.packets ++ [p], nextId := s.qs.nextId + 1 },
            mem := s1.mem.dismissed (ringId q x.head) }

/-- The packets of the batch that has just come are ordered against a batch of the other port of the same FCLK cycle (R95):
the tie bit names the port that goes first, and alternates. Packets of the earlier batch that still wait for dispatch take
numbers after the new ones where the new batch goes first (log 68). -/
def State.orderBatch (s : State) (port first : Nat) : State :=
  let n := s.qs.nextId - first
  let keep : State := { s with qs := { s.qs with lastFetch := some (s.cyc, port, first) } }
  match s.qs.lastFetch with
  | some (c, other, old) =>
    let mine := s.qs.packets.filter fun p => decide (first ≤ p.id)
    let theirs := s.qs.packets.filter fun p => decide (old ≤ p.id) && decide (p.id < first)
    if n = 0 then s
    else if c != s.cyc || other = port || !theirs.all (fun p => p.state == .fetched) then keep
    else
      let won := port = b2n s.qs.sessTie
      let packets := if won then (s.qs.packets.filter fun p => decide (p.id < old)) ++
          mine.map (fun p => { p with id := p.id - (first - old) }) ++ theirs.map (fun p => { p with id := p.id + n })
        else s.qs.packets
      let place (id : Nat) : Nat := if first ≤ id then id - (first - old) else if old ≤ id then id + n else id
      { s with qs := { s.qs with packets, sessTie := !s.qs.sessTie, lastFetch := none },
               mem := if won then s.mem.renumbered place else s.mem }
  | none => if n = 0 then s else keep

/-- FETCH_BATCH (R76, R441): the next batch of the queue whose turn it is on its port arrives. `entries` is what a host ring returned, shorter than the
batch where the last retry of a read failed; a ring in device memory is read there. -/
def execFetchBatch (q : Fin 8192) (entries : List (List Word)) (s : State) : Res :=
  let x := s.queue q.val
  let n := if s.fetchPick (portOf x.fid) = some q.val then s.batchSize q.val else 0
  let s := if n = 0 then s else s.takeTurn (portOf x.fid) q.val
  let got := if x.mem then ((List.range n).map fun k => s.memEntry x k).takeWhile Option.isSome |>.filterMap id
             else entries.take n
  let taken := got.foldl (fun st w => st.takeEntry q.val w) s
  let marked := (taken.qs.packets.filter fun p => decide (s.qs.nextId ≤ p.id)).foldl State.undefinePacket taken
  let s1 := marked.orderBatch (portOf x.fid) s.qs.nextId
  if got.length < n then
    let s2 := s1.setQueue q.val { s1.queue q.val with fetchErr := true }
    .next (s2.log { Report.of (0x0B00 + x.fid) 0x0B02 with fid := some x.fid, detail := q.val })
  else .next s1

-- Dispatch -------------------------------------------------------------------------------------------------------

/-- The entry address of an opcode, which the control store holds for 0x00–0xDF in word 0x0000 + opcode and for 0xE0–0xEF in the
Loggia's table (R334, R345): bits [15:0] of that word, a JMP's target. DEDUCED for the vendor's words (log 83). -/
def State.entryOf (s : State) (opc : Nat) : Nat := fld (s.storeWord (if 0xE0 ≤ opc then 0xE000 + (opc - 0xE0) else opc)) 0 16

/-- The input that a packet names by bus address is asked for on its submitter's port, with its requester ID (R80): the
blob of KEY_IMPORT, the nonce of ATTEST, the image of FW_RECOVER. -/
def State.askInput (s : State) (p : Packet) : State :=
  let ask (n : Nat) := if p.bus 0 + n ≤ 2 ^ 64 then s.emitRead p.fid (p.bus 0) n else s
  if p.opc = 0x40 && bit (p.p 4) 0 then ask 1664
  else if p.opc = 0x41 && bit (p.p 4) 0 then ask 64
  else if p.opc = 0xA1 && bit (p.p 3) 0 && within 4096 8388608 (p.p 2).toNat then ask (p.p 2).toNat
  else s

/-- The packet starts in context `i` of pair `k`, with the device-global configuration as it stands now (R39). -/
def State.startCtx (s : State) (p : Packet) (k : Fin 2) (i : Fin 8) : State :=
  let c : Ctx := { pair := k, slot := i }
  let x := { Context.reset with
    packet := some p.id, pc := s.entryOf p.opc, lastKey := s.entryOf p.opc, loggia := decide (0xE0 ≤ p.opc), ranAt := s.cyc,
    globals := Reg.globals.map fun off => (off, s.reg off) }
  ((s.setCtx c x).setPState p.id (.running c)).bump Reg.dispatched 0 32

/-- A packet is refused before its completion queue is known good: a bad CQ gives way to DEFAULT_CQ (row 3). -/
def State.refuseEarly (s : State) (p : Packet) (r : Refuse) : State :=
  let cq := if s.cqOk p.cq p.fid then p.cq else (s.queue p.q).defaultCq
  (s.produce p cq r.status r.reason s.now [0, loW r.v1, 0, 0]).endPacket p.id

/-- PACKET_DISPATCH (R78, R90, R334): the queue's next packet is judged by rows 1 to 3, waits its turn, is judged
by rows 4 to 8 and starts in its pair's lowest free context. -/
def execPacketDispatch (q : Fin 8192) (s : State) : Res :=
  match s.sends q.val with
  | .no => .next s
  | .refused p r => .next (s.refuseEarly p r)
  | .to p k i =>
    match firstRefusal (s.lateChecks p) with
    | some r => .next ((s.bump Reg.dispatched 0 32).refuse p r)
    | none => .next ((s.startCtx p (Fin.ofNat 2 k) (Fin.ofNat 8 i)).askInput p)

-- Completions ----------------------------------------------------------------------------------------------------

/-- The words of a completion entry (Table 04-3). -/
def Completion.words (c : Completion) (phase : Bool) : List Word :=
  [at_ 31 (b2n phase) ||| at_ 16 c.status ||| at_ 0 c.tag, at_ 16 c.session ||| at_ 0 c.reason, loW c.time, hiW c.time,
   wd c.vals 0, wd c.vals 1, wd c.vals 2, wd c.vals 3]

/-- The oldest held completion goes to its queue's TAIL; the phase inverts where TAIL wraps (R69, R70). -/
def State.writeEntry (s : State) (q : Nat) (c : Completion) : State :=
  let x := s.queue q
  let ws := c.words x.phase
  let a := x.base + 32 * x.tail
  let s1 := if x.mem then s.store a (bytesOfWords ws) else s.emitWrite x.fid a (bytesOfWords ws)
  let tail := (x.tail + 1) % x.size
  let s2 := (s1.setQueue q { x with tail, phase := if tail = 0 then !x.phase else x.phase }).emit (.completionEntry q x.tail ws)
  if c.noIrq then s2 else s2.raise x.irqSrc

/-- COMPLETION_WRITE (R69–R72): the queue's oldest held completion is written, unless the queue is full, disabled
or its function out of reach; then the interrupt. A crossing's goes no earlier than the end of its cycle (R24), and so after every other
crossing of that cycle is known (R28). -/
def execCompletionWrite (q : Fin 8192) (s : State) : Res :=
  let x := s.queue q.val
  match s.qs.held.find? fun c => c.cq == q.val with
  | none => .next s
  | some c =>
    let early := match c.crossedAt with | some t => decide (s.cyc ≤ t) | none => false
    if !x.en || x.ty != 2 || x.full || !s.reachable x.fid || s.clk.inDeep || early then .next s
    else .next ({ s with qs := { s.qs with held := s.qs.held.eraseP fun d => d.cq == q.val } }.writeEntry q.val c)

-- Packets that read the device -----------------------------------------------------------------------------------

/-- NOP. -/
def execNop (c : Ctx) (s : State) : Res :=
  .next (s.atKeystone c 0x00 (fun _ => []) fun p => s.done p [0, 0, 0, 0])

/-- Ports with link up. -/
def State.linksUp (s : State) : Word := maskOf 2 fun n => s.regF (Reg.portStatus n) 16 4 != 0

/-- Value words of a DEV_QUERY page (Table 04-5). -/
def State.queryPage (s : State) (page : Nat) : List Word :=
  match page with
  | 0 => [s.reg Reg.devId, 64, s.linksUp, loW (s.regF Reg.locks 29 1)]
  | 1 =>
    let active (k : SpanKind) := maskOf 18 fun p => (s.logicalOf k p).isSome
    let spare (k : SpanKind) := maskOf 18 fun p => (s.spares k).contains p
    [active .enc, spare .enc, active .dec, spare .dec]
  | 2 =>
    let rate (k : SpanKind) := if s.inGf then 0 else loW (s.unreserved k / 1000)
    [rate .enc, rate .dec, loW (s.sess.count fun _ x => x.claimed),
     loW (s.sess.count fun _ x => x.en)]
  | _ =>
    let mib (n : Nat) := if s.regF Reg.devStatus 24 4 = 7 then 0 else loW (n / 1048576)
    [mib memEnd, mib s.freeMemory, maskOf 24 fun g => s.sgState g == 3, loW s.mc.rpl.length]

/-- DEV_QUERY (R82, Table 04-5). -/
def execDevQuery (c : Ctx) (s : State) : Res :=
  .next (s.atKeystone c 0x01 (fun p => [need (decide ((p.p 0).toNat ≤ 3)) (badParam 0x070A 0)]) fun p =>
    s.done p (s.queryPage (p.p 0).toNat))

/-- CODE_STATUS (R82, Table 04-5): versions and the Loggia's state. -/
def execCodeStatus (c : Ctx) (s : State) : Res :=
  .next (s.atKeystone c 0xA0 (fun _ => []) fun p =>
    s.done p [s.reg Reg.fwVersion, s.reg Reg.patchVersion, s.reg Reg.loggiaVersion, loW (s.regF Reg.loggia 29 3)])

end Sys2Proof.Machine
end

