-- ==== Sys2Proof/Machine/Security.lean ====
section
/-! DEFINITION. Fuses, boot trust, attestation and content keys (R350–R369): the identity, the judgement of images,
firmware writes, ATTEST, KEY_IMPORT, KEY_ERASE, the fuse blows, IDE, SPDM and JTAG. -/

namespace Sys2Proof.Machine

-- Fuses and identity -------------------------------------------------------------------------------------------------

/-- Logical bits 32i to 32i + 31 of the fuse array: each is the OR of its two fuses (R350). -/
def State.arrayWord (s : State) (i : Nat) : Word := let (a, b) := s.sec.fuses.get i (0, 0); a ||| b

/-- Logical bits 32i to 32i + 31 as the shadow holds them since fuse sense (R350, Table 16-1). -/
def State.fuse (s : State) (i : Nat) : Word := s.sec.shadow.get i 0

/-- What fuse sense puts into the shadow: every blown word but those of PATCH_KEY and DEVICE_SECRET, bits 1,984–2,495 (R350). -/
def State.senseArray (s : State) : Tbl Word :=
  (s.sec.fuses.filter fun e => !within 62 77 e.1).map fun e => (e.1, s.arrayWord e.1)

/-- DEBUG_LOCK is blown, as the shadow shows it. -/
def State.debugLocked (s : State) : Bool := bit (s.fuse 50) 31

/-- The JTAG port is closed for good (R368): by the shadow, and before fuse sense by the array itself. -/
def State.jtagClosed (s : State) : Bool := if s.regB Reg.fuseStatus 31 then s.debugLocked else bit (s.arrayWord 50) 31

/-- The 64 bytes of a hash field: 0 and 1 FW_KEY_HASH, 2 CUST_KEY_HASH. -/
def State.hashFuse (s : State) (k : Nat) : List Byte := bytesOfWords ((List.range 16).map fun i => s.fuse (16 * k + i))

/-- The byte D of R353. -/
def State.dByte (s : State) : List Byte := [if s.debugLocked then 0 else 1]

/-- "K128-AK", "K128-KEM", "K128-KID", "K128-WRAP" and "K128-LOGGIA" in ASCII. -/
def labelAk : List Byte := [0x4B, 0x31, 0x32, 0x38, 0x2D, 0x41, 0x4B]
def labelKem : List Byte := [0x4B, 0x31, 0x32, 0x38, 0x2D, 0x4B, 0x45, 0x4D]
def labelKid : List Byte := [0x4B, 0x31, 0x32, 0x38, 0x2D, 0x4B, 0x49, 0x44]
def labelWrap : List Byte := [0x4B, 0x31, 0x32, 0x38, 0x2D, 0x57, 0x52, 0x41, 0x50]
def labelLoggia : List Byte := [0x4B, 0x31, 0x32, 0x38, 0x2D, 0x4C, 0x4F, 0x47, 0x47, 0x49, 0x41]

/-- Exactly `n` bytes: cut, or padded with zeros. -/
def fit (n : Nat) (bs : List Byte) : List Byte := (bs ++ List.replicate (n - bs.length) 0).take n

/-- Seed of the attestation key. -/
def State.akSeed (s : State) : List Byte := Config.shake256 48 (Config.deviceSecret ++ labelAk ++ s.dByte)

/-- The AK public key, 1,793 bytes. -/
def State.akPub (s : State) : List Byte := fit 1793 (Config.falconPublic s.akSeed)

/-- d ‖ z of the device KEM key. -/
def State.kemSeed (s : State) : List Byte := Config.shake256 64 (Config.deviceSecret ++ labelKem ++ s.dByte)

/-- DEVICE_ID. -/
def State.devId (s : State) : List Byte := fit 16 (Config.shake256 16 s.akPub)

/-- The wrapping key of R364. -/
def State.wrapKey (s : State) (ss label : List Byte) : List Byte := Config.shake256 32 (ss ++ label ++ s.devId)

-- Boot flash ----------------------------------------------------------------------------------------------------------

/-- The parts of the boot flash (Table 16-3): flash address and size. The active records stand at 0x000_0000 and 0x001_0000. -/
def flashMap : List (Nat × Nat) :=
  [(0x0020000, 0x10000), (0x0030000, 0xD0000), (0x0100000, 0x1F00000), (0x2000000, 0x1F00000), (0x3F00000, 0x100000)]

/-- Where a bank stands. -/
def bankBase (b : Bool) : Nat := if b then 0x2000000 else 0x0100000

/-- What the part at a flash address holds, no more than its size. -/
def State.flashPart (s : State) (base : Nat) : List Byte :=
  (s.sec.flash.get base []).take ((flashMap.find? fun r => r.1 == base).map (·.2) |>.getD 0)

/-- The state with the part at a flash address written. -/
def State.setFlash (s : State) (base : Nat) (b : List Byte) : State := { s with sec := { s.sec with flash := s.sec.flash.put base b } }

/-- A bank. -/
def State.bank (s : State) (b : Bool) : List Byte := s.flashPart (bankBase b)

/-- The Loggia partition (R346). -/
def State.loggiaImage (s : State) : List Byte := s.flashPart 0x3F00000

/-- The check of an active record over its fields (R355). Its length and the layout of the fields are open (log 87). -/
def recordCheck (magic : Word) (seqNo : Nat) (bankB : Bool) : List Byte :=
  Config.shake256 Config.recordCheckLength (bytesOfWords [magic, loW seqNo, loW (b2n bankB)])

/-- A record with this SEQNO and bank (R355). -/
def ActiveRec.new (seqNo : Nat) (bankB : Bool) : ActiveRec :=
  { magic := 0x41435456, seqNo := seqNo % 2 ^ 32, bankB, check := recordCheck 0x41435456 (seqNo % 2 ^ 32) bankB }

/-- A copy that is valid: its MAGIC and its check are right (R355). -/
def ActiveRec.valid (r : ActiveRec) : Bool := r.magic == 0x41435456 && r.check == recordCheck r.magic r.seqNo r.bankB

-- Images ---------------------------------------------------------------------------------------------------------------

/-- A little-endian field of `n` bytes at `lo`. -/
def leAt (b : List Byte) (lo n : Nat) : Nat := natOfBytes (slice b lo n)

/-- Bytes `lo` to `hi` are 0. -/
def zeroAt (b : List Byte) (lo hi : Nat) : Bool := (slice b lo (hi + 1 - lo)).all (· == 0)

/-- PUBKEY. -/
def imgPub (b : List Byte) : List Byte := slice b 64 1793

/-- SIGNATURE verifies under PUBKEY over every byte except 1,920–3,455 (R356). -/
def imgSigned (b : List Byte) : Bool :=
  Config.falconVerify (imgPub b) (Config.shake256 64 (b.take 1920 ++ b.drop 3456)) (slice b 1920 1536)

/-- VERSION, SVN and the flags of a firmware header. -/
def fwVer (b : List Byte) : Nat := leAt b 8 4
def fwSvn (b : List Byte) : Nat := leAt b 12 4
def fwAdvance (b : List Byte) : Bool := (b.getD 6 0).getLsbD 0
def fwRevoke (b : List Byte) : Bool := (b.getD 6 0).getLsbD 1

/-- The firmware image at the start of a bank. -/
def fwPart (b : List Byte) : List Byte := b.take (4096 + leAt b 16 4)

/-- Where the patch image begins: the firmware image padded to a multiple of 4 KiB (R354). -/
def patchAt (b : List Byte) : Nat := ceilDiv (4096 + leAt b 16 4) 4096 * 4096

/-- The patch image that follows it. -/
def patchPart (b : List Byte) : List Byte := slice b (patchAt b) (4096 + 4 * leAt b (patchAt b + 16) 4)

/-- The firmware header obeys Table 16-4 and the image lies within the bank (check 1 of R357). -/
def fwHeaderOk (b : List Byte) : Bool :=
  leAt b 0 4 == 0x4657494D && leAt b 4 2 == 1 && decide (leAt b 6 2 ≤ 3) && decide (fwSvn b ≤ 64) &&
    zeroAt b 20 63 && zeroAt b 1857 1919 && zeroAt b 3456 4095 && decide (4096 + leAt b 16 4 ≤ b.length)

/-- The patch header obeys Table 16-4 and the image lies within the bank (check 5). -/
def patchHeaderOk (b : List Byte) : Bool :=
  let p := b.drop (patchAt b)
  leAt p 0 4 == 0x50415443 && leAt p 4 2 == 1 && leAt p 6 2 == 0 && within 1 8192 (leAt p 16 4) &&
    zeroAt p 48 63 && zeroAt p 1857 1919 && zeroAt p 3456 4095 && decide (4096 + 4 * leAt p 16 4 ≤ p.length)

/-- The FW_KEY_HASH slot, not blank and not revoked, that a public key hashes to (check 2). -/
def State.slotOf (s : State) (pub : List Byte) : Option Nat :=
  let h := Config.shake256 64 pub
  (List.range 2).find? fun k =>
    s.hashFuse k == h && (s.hashFuse k).any (· != 0) && !(k == 0 && bit (s.reg Reg.locks) 30)

/-- FUSE.STATUS.ARB_COUNT. -/
def State.arbCount (s : State) : Nat := s.regF Reg.fuseStatus 0 7

/-- The patch's microwords (check 7). -/
def patchBody (b : List Byte) : Option (List Byte) :=
  let p := patchPart b
  Config.gcmOpen Config.patchKey (slice p 20 12) (p.take 64) (p.drop 4096) (slice p 32 16)

/-- The judgement of a bank image: the result of SEC.BOOT_STATUS, 1 when it passes (R357). -/
def State.judge (s : State) (b : List Byte) : Nat :=
  if !fwHeaderOk b then 2
  else match s.slotOf (imgPub b) with
    | none => 3
    | some k =>
      if !imgSigned (fwPart b) then 4
      else if fwSvn b < s.arbCount then 5
      else if !patchHeaderOk b || Config.shake256 64 (imgPub (patchPart b)) != s.hashFuse k || !imgSigned (patchPart b) then 6
      else if leAt (patchPart b) 12 4 != fwVer b then 8
      else if (patchBody b).isNone then 7
      else 1

/-- How FW_RECOVER refuses an image (R360). -/
def State.judgeRefuse (s : State) (b : List Byte) : Option Refuse :=
  match s.judge b with
  | 1 => none
  | 2 | 6 | 8 => some (badParam 0x0606 0)
  | 5 => some ⟨0x16, 0x0607, 0⟩
  | _ => some ⟨0x16, 0x0606, 0⟩

-- Firmware writes ---------------------------------------------------------------------------------------------------------

/-- The bank that is not running: B unless B runs. -/
def State.spareBankB (s : State) : Bool := !s.regB Reg.bootStatus 31

/-- The state with the contents of the bank that is not running. -/
def State.setSpareBank (s : State) (b : List Byte) : State :=
  s.setFlash (bankBase s.spareBankB) b

/-- The contents of the bank that is not running. -/
def State.spareBank (s : State) : List Byte := s.bank s.spareBankB

/-- 64 KiB sectors of an image. -/
def sectorsOf (b : List Byte) : Nat := ceilDiv b.length 65536

/-- The first `k` sectors of the bank as a write leaves them, and the rest as it was (R360). What the last sector holds behind the image
is open. -/
def State.sectorsWritten (s : State) (image : List Byte) (k : Nat) : List Byte :=
  let tail := (List.range (sectorsOf image * 65536 - image.length)).map fun i => Config.sectorTail s.free i
  (image ++ tail).take (k * 65536) ++ s.spareBank.drop (k * 65536)

/-- A write starts when none is in progress, and otherwise waits its turn (R360). -/
def State.startWrite (s : State) (w : FwWriteSt) : State :=
  match s.sec.write with
  | some _ => { s with sec := { s.sec with queue := s.sec.queue ++ [w] } }
  | none => { s with sec := { s.sec with write := some w } }.setReg Reg.fwWrite 0x80000000

/-- A write of a buffer's image holds the buffer until it ends (R294). -/
def State.unpinWrite (s : State) (w : FwWriteSt) : State := s.unpinAll w.pins

/-- The write in progress is over; the next one starts. -/
def State.nextWrite (s : State) (sectors : Nat) : State :=
  let s1 := { s with clk := { s.clk with quietSince := s.now } }.setReg Reg.fwWrite (at_ 0 sectors)
  match s1.sec.queue with
  | [] => { s1 with sec := { s1.sec with write := none } }
  | w :: r => { s1 with sec := { s1.sec with write := some w, queue := r } }.setReg Reg.fwWrite 0x80000000

/-- A new active record naming the bank written, one above the higher copy and over the lower one (R355, R360).
With no valid copy the SEQNO is free (log 46). -/
def State.writeRecord (s : State) : State :=
  let b := s.spareBankB
  let put (s : State) (first : Bool) (n : Nat) : State :=
    let r := ActiveRec.new n b
    if first then { s with sec := { s.sec with rec0 := some r } } else { s with sec := { s.sec with rec1 := some r } }
  match s.sec.rec0.filter ActiveRec.valid, s.sec.rec1.filter ActiveRec.valid with
  | some x, some y => put s (decide (x.seqNo < y.seqNo)) (max x.seqNo y.seqNo + 1)
  | some x, none => put s false (x.seqNo + 1)
  | none, some y => put s true (y.seqNo + 1)
  | none, none => let (w, s1) := s.takeFree; put s1 true w.toNat

/-- The four words that answer a mailbox request (Table 17-9). -/
def State.mbxReply (s : State) (tag : Nat) (r : Refuse) (v0 : Nat) : State :=
  [at_ 24 0xA1 ||| at_ 16 r.status ||| at_ 0 tag, loW r.reason, loW v0, 0].foldl
    (fun st w => (st.push 0 0x81 w).getD st) s

/-- A write ends: the packet completes, the mailbox is answered, or the PLDM request is (R360, R391, R436). -/
def State.answerWrite (s : State) (w : FwWriteSt) (r : Refuse) : State :=
  let v0 := if r.status = 0 then fwVer w.image else 0
  let s1 := match w.packet with
    | some id => (match s.packet? id with
        | some p => s.complete p r.status (if r.status = 0 then [loW v0, 0, 0, 0] else [0, loW r.v1, 0, 0])
        | none => s)
    | none => s
  match w.packet, w.mbx with
  | none, some m => s1.mbxReply m.1 r v0
  | none, none => s1.emit (.pldm 5 [loW r.status, loW v0])
  | some _, _ => s1

/-- A write of these functions stops at the next sector: that many sectors are new, and the record stays (R360). How
many were written by then is free. -/
def State.stopWrites (s : State) (p : FwWriteSt → Bool) : State :=
  let s0 := (s.sec.queue.filter p).foldl State.unpinWrite s
  let s1 := { s0 with sec := { s0.sec with queue := s0.sec.queue.filter fun w => !p w } }
  match s1.sec.write with
  | some w =>
    if p w then
      let (f, s2) := s1.takeFree
      let k := f.toNat % (sectorsOf w.image + 1)
      ({ s2.setSpareBank (s2.sectorsWritten w.image k) with free := s2.free + 1 }.unpinWrite w).nextWrite k
    else s1
  | none => s1

/-- FIRMWARE_WRITE_END (R360, R391): the bank is written and read back. Where it reads back right, the new active
record is written, for a mailbox request only if its port still holds SEM[0]. -/
def execFirmwareWriteEnd (readBackOk : Bool) (s : State) : Res :=
  match s.sec.write with
  | none => .next s
  | some w =>
    let n := sectorsOf w.image
    if !readBackOk then
      let s1 := { s.setSpareBank (Config.flashResidue s.free) with free := s.free + 1 }.unpinWrite w
      .next ((s1.answerWrite w ⟨0x20, 0, 0⟩).nextWrite n)
    else
      let s1 := { s.setSpareBank (s.sectorsWritten w.image n) with free := s.free + 1 }.unpinWrite w
      if w.mbx.isSome && !s.portHolds0 (portOf w.fid) then .next ((s1.answerWrite w ⟨0x17, 0x0708, 0⟩).nextWrite n)
      else .next ((s1.writeRecord.answerWrite w ⟨0, 0, 0⟩).nextWrite n)

-- References by bus address ---------------------------------------------------------------------------------------------

/-- A range named by bus address does not pass 2^64 (R80). -/
def busRangeOk (p : Packet) (i n : Nat) : Option Refuse := need (decide (p.bus i + n ≤ 2 ^ 64)) (badParam 0x0301 i)

/-- The reference in P`i` and P`i + 1`, a buffer's or a bus address. -/
def State.refOrBus (s : State) (p : Packet) (host : Bool) (i n : Nat) : Option Refuse :=
  if host then busRangeOk p i n else s.checkRef p.fid (p.p i) (p.p (i + 1)) n i

/-- The bytes of an input: those the bus read returned, exactly `n`, or those of the buffer. None where the last
retry of the bus read failed. -/
def State.input (s : State) (p : Packet) (host : Bool) (i n : Nat) (got : HostRead) : Option (List Byte) :=
  if host then got.map (fit n) else some (s.mem.readN (s.refAddr (p.p i) (p.p (i + 1))) n)

/-- A bus read or write that failed on its last retry: the packet completes ABORTED (R80). -/
def busFailed : Refuse := ⟨0x20, 0, 0⟩

-- FW_RECOVER ----------------------------------------------------------------------------------------------------------------

/-- The checks of FW_RECOVER (R360). -/
def State.recoverChecks (s : State) (p : Packet) (image : HostRead) : List (Option Refuse) :=
  let host := bit (p.p 3) 0
  let n := (p.p 2).toNat
  let img := s.input p host 0 n image
  [need (s.portHolds0 (portOf p.fid)) ⟨0x17, 0x0708, 0⟩, s.refOrBus p host 0 n,
   need (within 4096 8388608 n) (badParam 0x070A 2), need img.isSome busFailed,
   s.judgeRefuse (img.getD [])]

/-- FW_RECOVER (R360). -/
def execFwRecover (c : Ctx) (image : HostRead) (s : State) : Res :=
  .next (s.atKeystone c 0xA1 (fun p => s.recoverChecks p image) fun p =>
    let img := (s.input p (bit (p.p 3) 0) 0 (p.p 2).toNat image).getD []
    let held := if bit (p.p 3) 0 then [] else [handleKey (p.p 0)]
    ((s.pinAll held).leaveCtx c p .writing).startWrite { packet := some p.id, mbx := none, image := img, fid := p.fid, pins := held })

/-- The first refusal of a mailbox request (R391). -/
def State.requestRefusal (s : State) (w0 : Word) (owner n : Nat) (image : HostRead) : Option Refuse :=
  let port := portOf (owner - 1)
  firstRefusal
    [need (fld w0 24 8 == 0xA1 && fld w0 16 8 == 0) ⟨0x14, 0x0207, 0⟩,
     need ((owner == 0x01 || owner == 0x41) && s.right port 0) ⟨0x16, 0x0601, 0⟩,
     need (s.portHolds0 port) ⟨0x17, 0x0708, 0⟩, need (within 4096 8388608 n) (badParam 0x0301 0),
     need image.isSome busFailed, s.judgeRefuse (fit n (image.getD []))]

/-- The Concourse can take a request at end 1 of MBX[0] and has none in hand (R390). -/
def State.takesRequest (s : State) : Bool :=
  s.ready && !s.fc.gfDead && (!s.inGf || s.fc.gfService) && !s.clk.inDeep &&
    (s.sec.write.toList ++ s.sec.queue).all (fun w => w.mbx.isNone) &&
    decide (4 ≤ (s.box 0).e0.queue.length) && decide ((s.box 0).e1.queue.length ≤ 4)

/-- FW_RECOVER_MAILBOX (R390, R391): the Concourse pops the fourth word of a request, judges it and answers, or
starts the write. -/
def execFwRecoverMailbox (image : HostRead) (s : State) : Res :=
  if !s.takesRequest then .next s
  else
    let owner := (s.box 0).e0.owner
    let (ws, s1) := (List.range 4).foldl (fun (acc : List Word × State) _ =>
      match acc.2.pop 0 0x81 with
      | some (w, st) => (acc.1 ++ [w], st)
      | none => acc) (([] : List Word), s)
    let tag := fld (wd ws 0) 0 16
    let n := (wd ws 3).toNat
    match s1.requestRefusal (wd ws 0) owner n image with
    | some r => .next (s1.mbxReply tag r 0)
    | none =>
      .next (s1.startWrite { packet := none, mbx := some (tag, owner - 1), image := fit n (image.getD []), fid := owner - 1, pins := [] })

/-- PLDM_TYPE5_REQUEST (R49, R360, R436): a firmware update over SMBus that names functions of port `n`. Its image is
judged as FW_RECOVER's is; it needs the port's firmware-load right. Any such request ends DEEP_IDLE (Table 18-3). -/
def execPldmType5Request (n : Fin 2) (image : List Byte) (s : State) : Res :=
  if !s.ready || s.fc.gfDead || (s.inGf && !s.fc.gfService) || s.clk.inDeep then .next s
  else
    let refusal := firstRefusal
      [need (s.right n.val 0) ⟨0x16, 0x0601, 0⟩, need (within 4096 8388608 image.length) (badParam 0x0301 0),
       s.judgeRefuse image]
    match refusal with
    | some r => .next (s.emit (.pldm 5 [loW r.status, 0]))
    | none => .next (s.startWrite { packet := none, mbx := none, image, fid := 64 * n.val, pins := [] })

-- ATTEST --------------------------------------------------------------------------------------------------------------------

/-- SHAKE256-512 of an image; zeros when it is absent (R359, Table 16-6). -/
def digest (b : List Byte) : List Byte := if b.isEmpty then List.replicate 64 0 else fit 64 (Config.shake256 64 b)

/-- The running patch image. -/
def State.runningPatch (s : State) : List Byte := if s.sec.running.isEmpty then [] else patchPart s.sec.running

/-- The Loggia image as loaded: the 5,120 + 4 × WORDS bytes that its signature covers (R349). -/
def State.loggiaSigned (s : State) : List Byte := s.loggiaImage.take (5120 + 4 * leAt s.loggiaImage 12 4)

/-- CONFIG of the report: bits 0 to 11 (Table 16-6). -/
def State.reportConfig (s : State) : Word :=
  let r := s.reg Reg.portRights
  at_ 0 (s.regF Reg.bootStatus 29 1) ||| at_ 1 (s.regF Reg.loggia 29 3) ||| at_ 4 (fld r 0 3) ||| at_ 7 (fld r 4 3) |||
    at_ 10 (s.regF Reg.locks 27 2)

/-- Bytes 0–3,839 of the report. -/
def State.reportBody (s : State) (nonce : List Byte) : List Byte :=
  let flags := b2n (s.regB Reg.bootStatus 28) + 2 * b2n s.inGf + 4 * b2n (s.regB Reg.bootStatus 30)
  bytesOfWords [0x41545354, at_ 16 flags ||| 1] ++ s.devId ++
    bytesOfWords [s.reg Reg.part, loW s.arbCount, loW s.now, hiW s.now, s.reg Reg.fwVersion, s.reg Reg.patchVersion,
      s.reg Reg.loggiaVersion, s.reportConfig, 0, 0] ++
    fit 64 nonce ++ digest (fwPart s.sec.running) ++ digest s.runningPatch ++
    digest (if s.loggiaLoaded then s.loggiaSigned else []) ++ s.hashFuse 2 ++ s.akPub ++ List.replicate 63 0 ++
    fit 1568 (Config.kemPublic s.kemSeed) ++ List.replicate 32 0

/-- The attestation report, 6,912 bytes. -/
def State.reportBytes (s : State) (nonce : List Byte) : List Byte :=
  let b := s.reportBody nonce
  b ++ fit 1536 (Config.falconSign s.akSeed (Config.shake256 64 b)) ++ fit 1536 (s.sec.flash.get 0x0020000 Config.certificate)

/-- ATTEST (R361): the report is written where P2 and P3 say. -/
def execAttest (c : Ctx) (nonce : HostRead) (outOk : Bool) (s : State) : Res :=
  .next (s.atKeystone c 0x41
    (fun p => [s.refOrBus p (bit (p.p 4) 0) 0 64, s.refOrBus p (bit (p.p 4) 1) 2 6912,
      need (s.input p (bit (p.p 4) 0) 0 64 nonce).isSome busFailed, need (!bit (p.p 4) 1 || outOk) busFailed])
    fun p =>
      let r := s.reportBytes ((s.input p (bit (p.p 4) 0) 0 64 nonce).getD [])
      let s1 := if bit (p.p 4) 1 then (s.emitWrite p.fid (p.bus 2) r).emitFlush p.fid (p.bus 2 + 6911) else s.store (s.refAddr (p.p 2) (p.p 3)) r
      s1.done p [6912, 0, 0, 0])

-- Content keys ----------------------------------------------------------------------------------------------------------------

/-- The lowest EMPTY slot. -/
def State.emptySlot (s : State) : Option Nat := (List.range 128).find? fun k => (s.key k).state == 0

/-- The slot that an import takes: the named one, or the lowest EMPTY one. -/
def State.importSlot (s : State) (p : Packet) : Option Nat :=
  if p.p 2 = allW then s.emptySlot
  else if (s.key (p.p 2).toNat).state = 0 then some (p.p 2).toNat else none

/-- KEY_LEN of a usage. -/
def usageLen (usage : Nat) : Nat := if usage = 1 then 16 else 32

/-- The key that a blob unwraps to, none when its format, the decapsulation or the tag fails (R363, R364). -/
def State.unwrap (s : State) (b : List Byte) : Option (List Byte) :=
  if leAt b 0 4 == 0x4B575250 && leAt b 4 2 == 1 && zeroAt b 8 15 && zeroAt b 1644 1663 then
    match Config.kemDecaps s.kemSeed (slice b 16 1568) with
    | none => none
    | some ss =>
      match Config.gcmOpen (s.wrapKey ss labelWrap) (slice b 1584 12) (b.take 16) (slice b 1596 32) (slice b 1628 16) with
      | none => none
      | some k =>
        let n := leAt b 6 1
        if (k.drop n).all (· == 0) then some (fit n k) else none
  else none

/-- KEY_ID of a key (Table 16-7). -/
def keyIdOf (k : List Byte) : Word := wordOfBytes (Config.shake256 4 (labelKid ++ k))

/-- The checks of KEY_IMPORT (R363). -/
def State.importChecks (s : State) (p : Packet) (blob : HostRead) : List (Option Refuse) :=
  let host := bit (p.p 4) 0
  let b := s.input p host 0 1664 blob
  let x := b.getD []
  let u := (p.p 3).toNat
  [s.refOrBus p host 0 1664, need b.isSome busFailed,
   need (decide ((p.p 2).toNat ≤ 127) || p.p 2 == allW) (badParam 0x070A 2),
   need (u == 1 || u == 2) (badParam 0x0604 3), need (s.importSlot p).isSome ⟨0x16, 0x0603, 0⟩,
   need (leAt x 7 1 == u && leAt x 6 1 == usageLen u) ⟨0x16, 0x0604, 0⟩, need (s.unwrap x).isSome ⟨0x16, 0x0605, 0⟩]

/-- SEC.UNWRAP_FAILS counts an import refused with 0x0605. -/
def State.countUnwrap (s : State) (r : Option Refuse) : State :=
  match r with
  | some x => if x.reason = 0x0605 then s.bumpSat Reg.unwrapFails 0 32 1 else s
  | none => s

/-- KEY_IMPORT (R363). -/
def execKeyImport (c : Ctx) (blob : HostRead) (s : State) : Res :=
  match s.packetIn c 0x40 with
  | none => .next s
  | some p =>
    if s.behindEarlier p fun r => r.opc == 0x40 then .next s
    else match firstRefusal (s.importChecks p blob) with
    | some r => .next ((s.countUnwrap (some r)).refuse p r)
    | none =>
      let key := (s.unwrap ((s.input p (bit (p.p 4) 0) 0 1664 blob).getD [])).getD []
      let k := (s.importSlot p).getD 0
      let x : KeySlot :=
        { state := 1, usage := (p.p 3).toNat, owner := p.fid, holds := 0, keyId := keyIdOf key, seq := 0, key }
      .next (((s.setKey k x).bump Reg.imports 0 32).done p [loW k, x.keyId, 0, 0])

/-- The slots that a KEY_ERASE concerns. -/
def State.eraseSlots (s : State) (p : Packet) : List Nat :=
  if p.p 0 = allW then s.sec.slots.keysWhere fun _ x => x.state == 1 && x.owner == p.fid else [(p.p 0).toNat]

/-- KEY_ERASE (R366): the slots become ERASING; the packet completes with the last one destroyed. -/
def execKeyErase (c : Ctx) (s : State) : Res :=
  .next (s.atKeystone c 0x42
    (fun p =>
      let x := s.key (p.p 0).toNat
      [need (decide ((p.p 0).toNat ≤ 127) || p.p 0 == allW) (badParam 0x070A 0),
       need (p.p 0 == allW || x.state == 1) ⟨0x16, 0x0602, 0⟩,
       need (p.p 0 == allW || x.owner == p.fid) ⟨0x16, 0x0603, 0⟩])
    fun p =>
      let ks := s.eraseSlots p
      if ks.isEmpty then s.done p [0, 0, 0, 0]
      else ks.foldl State.eraseKey (s.leaveCtx c p (.erasing ks ks.length)))

-- Fuse blows, self-check, IDE, SPDM, JTAG ------------------------------------------------------------------------------------------

/-- Bits `lo` to `hi − 1` of the 64 ANTIROLLBACK fuses, as fuse words 48 and 49. -/
def arbMask (lo hi : Nat) (w : Nat) : Word := maskOf 32 fun b => decide (lo ≤ 32 * w + b) && decide (32 * w + b < hi)

/-- Fuse bits of a word are blown, both fuses of each. Where the blow does not read back, which of the fuses blew is free. -/
def State.blow (s : State) (i : Nat) (m : Word) (ok : Bool) : State :=
  if m = 0 then s
  else
    let (f, s1) := if ok then (allW, s) else s.takeFree
    let (g, s2) := if ok then (allW, s1) else s1.takeFree
    let (a, b) := s2.sec.fuses.get i (0, 0)
    { s2 with sec := { s2.sec with fuses := s2.sec.fuses.put i (a ||| (m &&& f), b ||| (m &&& g)) } }

/-- The running firmware's header asks for ANTIROLLBACK bits to be blown, and for FW_SLOT0_REVOKED (R358). -/
def State.advances (s : State) : Bool := !s.sec.running.isEmpty && fwAdvance s.sec.running && decide (s.arbCount < fwSvn s.sec.running)
def State.revokes (s : State) : Bool := !s.sec.running.isEmpty && fwRevoke s.sec.running && s.regB Reg.bootStatus 29

/-- At READY SEC begins the blows that are due (R358, DESIGN CHOICE on the moment, log 88): BLOW_BUSY is set where there are any. -/
def State.beginBlow (s : State) : State :=
  { s.setRegB Reg.fuseStatus 29 (s.advances || s.revokes) with clk := { s.clk with fuseBlowDue := true } }

/-- FUSE_BLOW (R352, R358): the blows that began at READY end: the anti-rollback and revocation fuses that the running firmware's header
asks for. BLOW_BUSY clears.
The shadow shows them at the next fuse sense (R350). -/
def execFuseBlow (readBackOk : Bool) (s : State) : Res :=
  if !s.ready || !s.clk.fuseBlowDue then .next s
  else
    let h := s.sec.running
    let s0 := { s.setRegB Reg.fuseStatus 29 false with clk := { s.clk with fuseBlowDue := false } }
    let adv := s.advances
    let rev := s.revokes
    if !adv && !rev then .next s0
    else
      let m (w : Nat) : Word := if adv then arbMask s.arbCount (fwSvn h) w else 0
      let s1 := ((s0.blow 48 (m 0) readBackOk).blow 49 (m 1) readBackOk).blow 50 (if rev then 0x40000000 else 0) readBackOk
      .next (if readBackOk then s1 else (s1.raiseB Reg.fuseStatus 28).log (Report.of 0x0D00 0x0D01))

/-- SECURITY_SELF_CHECK_FAILED (R372, R386): FATAL. -/
def execSecuritySelfCheckFailed (s : State) : Res :=
  if !s.clk.alive then .next s else .next (s.log (Report.of 0x0D00 0x0D02))

/-- SPDM_MESSAGE (R369): the device answers on the PF's DOE mailbox; with its AK it opens the secured session that
IDE_KM needs. -/
def execSpdmMessage (n : Fin 2) (authenticates : Bool) (s : State) : Res :=
  if s.portInReset n.val || (s.port n.val).crs || !s.clk.alive then .next s
  else
    let p := s.port n.val
    .next ((s.setPort n.val { p with spdmSecured := p.spdmSecured || authenticates }).emit (.spdm n.val authenticates))

/-- IDE_KM (R369): keys of a stream, accepted only inside the secured session. -/
def execIdeKm (n : Fin 2) (stream : IdeKey) (s : State) : Res :=
  let p := s.port n.val
  if s.portInReset n.val || p.crs || !p.spdmSecured || !s.clk.alive then .next s
  else
    let k := stream.stream.val
    let q := { p with ideKeys := p.ideKeys.put k stream.covers, insecure := p.insecure.del k }
    .next (((s.setPort n.val q).setRegB (Reg.ideStatus n.val) k true).setRegB (Reg.ideStatus n.val) (4 + k) false)

/-- IDE_CHECK_FAILED (R369): the stream becomes Insecure, and what it covers is dropped, until the host programs it again. -/
def execIdeCheckFailed (n : Fin 2) (stream : Fin 4) (s : State) : Res :=
  if !s.regB (Reg.ideStatus n.val) stream.val then .next s
  else
    let p := s.port n.val
    let s1 := s.setPort n.val { p with ideKeys := p.ideKeys.del stream.val,
                                       insecure := p.insecure.put stream.val (p.ideKeys.get stream.val []) }
    let s2 := (s1.setRegB (Reg.ideStatus n.val) stream.val false).setRegB (Reg.ideStatus n.val) (4 + stream.val) true
    .next ((s2.emit (.ideCheckFailed n.val stream.val)).protoEvent (64 * n.val) 0)

/-- JTAG_ACCESS (R368, R432): IDCODE and BYPASS are answered; with DEBUG_LOCK blown nothing else is, and on an open
part the spec says nothing of another instruction. -/
def execJtagAccess (i : JtagInst) (s : State) : Res :=
  match i with
  | .idcode => .next (s.emit (.jtag true))
  | .bypass => .next (s.emit (.jtag false))
  | .other _ => if s.jtagClosed then .next s else .refused .jtagOpenPart

end Sys2Proof.Machine
end

