-- ==== Sys2Proof/Machine/Sem.lean ====
section
/-! DEFINITION. Semaphores (R50–R54): acquire by reading, release by writing, ties between the ports, and
what a reset releases. -/

namespace Sys2Proof.Machine

/-- An acquire attempt decided in its cycle: what the read returns and the state (R50). -/
def State.acquire (s : State) (n code : Nat) : Nat × State :=
  if s.holder n = 0 then (0, s.setHolder n code) else (s.holder n, s)

/-- A read of SEM.LOCK[n] by one agent: a VF's read of SEM.LOCK[0] is no attempt and returns 0xFF (R54). -/
def State.lockRead (s : State) (n : Nat) (a : Agent) : Nat × State :=
  if n = 0 && a.isVf then (0xFF, s) else s.acquire n a.code

/-- SEM.TIE_NEXT.PORT. -/
def State.semTie (s : State) : Nat := s.regF Reg.tieNext 0 1

/-- Both reads reach a free semaphore in one cycle: the port of TIE_NEXT wins and the bit passes to the loser
(R52); a control processor loses to a port (R53). Where the two are not such a tie, `a` comes first. -/
def State.lockReads (s : State) (n : Nat) (a : Agent) (b : Agent) : Nat × Nat × State :=
  let both := s.holder n == 0 && !(n == 0 && a.isVf) && !(n == 0 && b.isVf)
  let bFirst :=
    match a, b with
    | .cp _, .fn _ => both
    | .fn f, .fn g => both && portOf f.val != portOf g.val && s.semTie == portOf g.val
    | _, _ => false
  let tie :=
    match a, b with
    | .fn f, .fn g => both && portOf f.val != portOf g.val
    | _, _ => false
  let s0 := if tie then s.setRegF Reg.tieNext 0 1 (1 - s.semTie) else s
  if bFirst then
    let (rb, s1) := s0.lockRead n b
    let (ra, s2) := s1.lockRead n a
    (ra, rb, s2)
  else
    let (ra, s1) := s0.lockRead n a
    let (rb, s2) := s1.lockRead n b
    (ra, rb, s2)

/-- SEM_ACQUIRE (R50, R52, R53, R54). -/
def execSemAcquire (n : Fin 64) (a : Agent) (rival : Option Fid) (s : State) : Res :=
  if !s.live a then .next s
  else
    let off := Reg.semLock n.val
    match rival with
    | some f =>
      if s.live (.fn f) && a != .fn f then
        let (ra, rb, s1) := s.lockReads n.val a (.fn f)
        .next ((s1.emit (.readWord off (loW ra))).emit (.readWord off (loW rb)))
      else
        let (r, s1) := s.lockRead n.val a
        .next (s1.emit (.readWord off (loW r)))
    | none =>
      let (r, s1) := s.lockRead n.val a
      .next (s1.emit (.readWord off (loW r)))

/-- A write of SEM.LOCK[n]: the holder's own code in OWNER releases; anything else is dropped and logged (R51, R54). -/
def State.lockWrite (s : State) (n : Nat) (a : Agent) (v : Word) : State :=
  if !(n == 0 && a.isVf) && s.holder n == a.code && fld v 0 8 == a.code then s.setHolder n 0
  else s.protoEventA a (Reg.semLock n)

/-- SEM_RELEASE (R51); where another requester's read falls in the same cycle, the release comes first. -/
def execSemRelease (n : Fin 64) (a : Agent) (w : Release) (s : State) : Res :=
  let s1 := if s.live a then s.lockWrite n.val a w.value else s
  match w.reader with
  | some b =>
    if b != a && s1.live b then
      let (r, s2) := s1.lockRead n.val b
      .next (s2.emit (.readWord (Reg.semLock n.val) (loW r)))
    else .next s1
  | none => .next s1

/-- Semaphores held by owner codes that satisfy `p`, in ascending order. -/
def State.heldBy (s : State) (p : Nat → Bool) : List Nat :=
  s.sem.keysWhere fun _ c => c != 0 && p c

/-- A reset of functions of port `n` releases every semaphore they held, and SEM.EVENT records it (R62,
Table 03-9). -/
def State.releaseSems (s : State) (n : Nat) (p : Nat → Bool) : State :=
  let held := s.heldBy p
  let s1 := held.foldl (fun st k => st.setHolder k 0) s
  if held.isEmpty then s1
  else ((s1.setRegF Reg.semEvent (8 * n) 8 held.length).raiseB Reg.semEvent (30 + n)).raise 960

end Sys2Proof.Machine
end

