-- ==== Sys2Proof/Machine/Resets.lean ====
section
/-! DEFINITION. Resets within a port's scope (R61–R63) with what each unit does under them (R89, R261, R295, R310, R326,
R331, R360, R367, R369), PERSTn_N and CRS (R411, R431), links (Table 03-2), SR-IOV, and the SMBus target (R436). -/

namespace Sys2Proof.Machine

-- Functions in scope ------------------------------------------------------------------------------------------------------

/-- The semaphore and mailbox owner code of a function in scope. -/
def inScope (p : Nat → Bool) (code : Nat) : Bool := decide (1 ≤ code) && decide (code ≤ 128) && p (code - 1)

/-- Windows, latches, staging registers, capture copies and MSI-X state of the functions return to reset (R62, R420). -/
def State.resetWindows (s : State) (p : Nat → Bool) : State :=
  { s with agents := s.agents.mapIf (fun c _ => inScope p c) fun _ => AgentSt.reset,
           fns := s.fns.mapIf (fun f _ => p f) fun _ => FnSt.reset }

/-- The queues bound to the functions: EN and TYPE are 0 and nothing held for them is written (R62, R89). -/
def State.resetQueues (s : State) (p : Nat → Bool) : State :=
  let s1 := { s with qs := { s.qs with
      held := s.qs.held.filter fun c => !p (s.queue c.cq).fid,
      tbl := s.qs.tbl.mapIf (fun _ x => x.ty != 0 && p x.fid) fun x => { x with en := false, ty := 0 } } }
  (s.qs.tbl.keysWhere fun _ x => x.ty != 0 && p x.fid).foldl State.dropRing s1

/-- One packet of a function in scope: a frame's stays, without a completion, until the frame has crossed; any other
ends with no completion, an ENC_FRAME in an empty crossing (R23). -/
def State.resetPacket (s : State) (p : Packet) : State :=
  match p.state with
  | .frame | .burst _ => s.setPackets (s.qs.packets.map fun r => if r.id == p.id then { r with mute := true } else r)
  | .kick _ => s
  | _ => (s.crossPacket p 0x21).endPacket p.id

/-- Every packet of the functions ends (R62); an injection that waits is cancelled (R383). -/
def State.resetPackets (s : State) (p : Nat → Bool) : State :=
  let ps := s.qs.packets.filter fun r => p r.fid
  let s1 := { s with fc := { s.fc with injections := s.fc.injections.filter fun i => !ps.any fun r => r.id == i.packet } }
  ps.foldl State.resetPacket s1

/-- One session is disabled: its frames end ABORTED_RESET at their next pier, or cross (R62, R179), and its flows' unsent
packets are discarded (R261). -/
def State.resetSession (s : State) (i : Nat) : State :=
  let s1 := s.disableSession i fun x => { x with vis := [] }
  let s2 := s1.endSessionFrames i 0x21
  ((List.range 6).foldl (fun st k => st.discardFlow (flowId i k)) s2).settleDrain i

/-- The sessions of the functions. -/
def State.resetSessions (s : State) (p : Nat → Bool) : State :=
  (s.sess.keysWhere fun _ x => x.claimed && p x.owner).foldl State.resetSession s

/-- Channels, buffers and key slots of the functions (R295, R310, R367). -/
def State.resetHoldings (s : State) (p : Nat → Bool) : State :=
  let s1 := (s.dma.keysWhere fun _ c => c.assigned && p c.owner).foldl State.dropChan s
  let fids := (List.range 128).filter fun f => p f && s1.bpm.bufs.any fun e => e.2.owners.contains f
  let s2 := fids.foldl State.dropOwnerEverywhere s1
  (s2.keysOf p).foldl State.eraseKey s2

/-- An IST entry under a reset of the functions (R326). -/
def IstEntry.underReset (e : IstEntry) (p : Nat → Bool) : IstEntry :=
  let t := { e with targets := e.targets.map fun t => if t.valid && !t.isCp && p t.fid then IstTarget.reset else t }
  if inScope p e.owner then { t with owner := 0, en := false, pend := false, latched := none, reRaised := false } else t

/-- The interrupt controller under a reset of the functions (R326). -/
def State.resetIst (s : State) (p : Nat → Bool) : State :=
  let owned := s.ic.ist.keysWhere fun _ e => inScope p e.owner
  { s with ic := { s.ic with ist := s.ic.ist.mapVal fun e => e.underReset p,
                             reqs := s.ic.reqs.filter fun r => !owned.contains r.1,
                             latches := s.ic.latches.filter fun l => !owned.contains l.src && !(l.msg.any fun m => p m.1),
                             returned := s.ic.returned.filter fun f => !p f } }

/-- A reset of functions of port `n` (R62). -/
def State.resetFns (s : State) (n : Nat) (p : Nat → Bool) : State :=
  let s1 := (s.resetPackets p).resetQueues p
  let s2 := ((s1.stopWrites fun w => (w.packet.isSome || w.mbx.isSome) && p w.fid).resetSessions p).resetHoldings p
  let s3 := (s2.resetIst p).freeTimers p
  let s4 := (s3.releaseSems n (inScope p)).dropEnds (inScope p) 1
  { s4.resetWindows p with clk := { s4.clk with quietSince := s4.now } }

/-- Every function of port `n`. -/
def ofPort (n fid : Nat) : Bool := portOf fid == n

/-- The port's PF is reset: its VFs go, and its IDE streams, keys and SPDM session (R369, log 47). -/
def State.resetPf (s : State) (n : Nat) : State :=
  let s1 := s.resetFns n (ofPort n)
  (s1.setPort n { s1.port n with numVfs := 0, spdmSecured := false, ideKeys := [], insecure := [] }).setReg (Reg.ideStatus n) 0

/-- The link is down (Table 03-2). -/
def State.linkGone (s : State) (n : Nat) : State :=
  let off := Reg.portStatus n
  (((s.setRegF off 16 4 0).setRegF off 10 6 0).setRegB off 9 false).setRegF off 0 3 5

/-- A reset of the whole port: PERST, hot reset or link down (R61, R62, R329); its aperture's waiting requests are gone (R284). -/
def State.resetPort (s : State) (n : Nat) : State :=
  let s1 := ((s.ptmStops n).resetPf n).linkGone n
  let s2 := { s1 with mc := { s1.mc with starve := s1.mc.starve.filter fun e => e.1 % 64 != 48 + n } }
  (s2.setPort n { s2.port n with ptmEn := false }).bump (Reg.portStatus n) 24 8

-- The commands ----------------------------------------------------------------------------------------------------------------

/-- PERST_ASSERT (R431): sampled once held for 100 ticks. The port is then held in reset; D3cold if its PF slept (R325). -/
def execPerstAssert (n : Fin 2) (held : Nat) (s : State) : Res :=
  let k := n.val
  if held < 100 || (s.port k).perst then .next s
  else if !s.clk.alive then .next (s.setPort k { s.port k with perst := true })
  else
    let cold := (s.fn (64 * k)).d3hot
    let s1 := s.resetPort k
    .next ((s1.setPort k { s1.port k with perst := true, crs := true, d3cold := cold }).setRegB (Reg.portStatus k) 8 true)

/-- PERST_DEASSERT (R325, R411): the port leaves reset, its CRS period starts, and WAKEn_N deasserts. -/
def execPerstDeassert (n : Fin 2) (s : State) : Res :=
  let k := n.val
  if !(s.port k).perst then .next s
  else
    let s1 := s.setPort k { s.port k with perst := false, crs := true, d3cold := false, releasedAt := s.time.raw }
    if s.clk.alive then .next ((s1.setRegB (Reg.portStatus k) 8 false).setRegB (Reg.wakeCtrl k) 29 false) else .next s1

/-- DEV.STATUS.STAGE. -/
def State.stage (s : State) : Nat := s.regF Reg.devStatus 24 4

/-- CRS_END (R411): 2,000,000 ticks after PERSTn_N, or POR_N if later, deasserted, and not before the end of stage 1. -/
def execCrsEnd (n : Fin 2) (s : State) : Res :=
  let p := s.port n.val
  if s.clk.alive && !p.perst && decide (p.releasedAt + 2000000 ≤ s.time.raw) && decide (2 ≤ s.stage) then
    .next (s.setPort n.val { p with crs := false })
  else .next s

/-- HOT_RESET (R61, R62): the port is in reset until its link trains again. -/
def execHotReset (n : Fin 2) (s : State) : Res :=
  if !s.clk.alive || (s.port n.val).perst then .next s
  else .next ((s.resetPort n.val).setRegB (Reg.portStatus n.val) 8 true)

/-- LINK_DOWN (R61, R62): a link that was up goes down. -/
def execLinkDown (n : Fin 2) (s : State) : Res :=
  if s.regF (Reg.portStatus n.val) 16 4 = 0 then .next s else .next (s.resetPort n.val)

/-- A function level reset (R61, R62): a PF's covers its VFs. -/
def State.flr (s : State) (f : Fid) : State :=
  if !s.fnLive f.val then s
  else if isPf f.val then s.resetPf (portOf f.val)
  else s.resetFns (portOf f.val) fun g => g == f.val

/-- FLR (R61, R62). -/
def execFlr (f : Fid) (s : State) : Res := .next (s.flr f)

/-- VF_ENABLE_CLEAR (R61): every VF of the port is reset and gone. -/
def execVfEnableClear (n : Fin 2) (s : State) : Res :=
  if !s.fnLive (64 * n.val) then .next s
  else
    let s1 := s.resetFns n.val fun g => portOf g == n.val && !isPf g
    .next (s1.setPort n.val { s1.port n.val with numVfs := 0 })

/-- VF_ENABLE_SET (R292): the port's VFs come into existence. -/
def execVfEnableSet (n : Fin 2) (numVfs : Fin 64) (s : State) : Res :=
  if !s.fnLive (64 * n.val) || (s.port n.val).numVfs != 0 then .next s
  else .next (s.setPort n.val { s.port n.val with numVfs := numVfs.val })

/-- A rate and width that a link can train to (Table 03-1, Table 03-2): 64 GT/s runs in FLIT mode. -/
def linkOkAt (speed width : Nat) (flit : Bool) : Bool :=
  within 3 6 speed && [1, 2, 4, 8, 16].contains width && (speed != 6 || flit)

/-- LINK_UP (R41). -/
def execLinkUp (n : Fin 2) (speed : Fin 7) (width : Fin 17) (flit : Bool) (s : State) : Res :=
  let off := Reg.portStatus n.val
  if !s.clk.alive || (s.port n.val).perst || !linkOkAt speed.val width.val flit then .next s
  else
    .next ((((((s.setRegF off 16 4 speed.val).setRegF off 10 6 width.val).setRegB off 9 flit).setRegF off 0 3 0).setRegB off 8
      false))

/-- LINK_PM_TRANSITION (R41): between L0, L0p, L1, L1.1 and L1.2 while the link is up. -/
def execLinkPmTransition (n : Fin 2) (pm : Fin 5) (s : State) : Res :=
  let off := Reg.portStatus n.val
  if s.regF off 16 4 = 0 then .next s else .next (s.setRegF off 0 3 pm.val)

-- The SMBus target ----------------------------------------------------------------------------------------------------------------

/-- SMB_ALERT_N's conditions (R436): THROTTLED or FAULT_N. -/
def State.alertDue (s : State) : Bool := s.regB Reg.pwrStatus 24 || s.regB Reg.fcStatus 30

/-- PLDM_TYPE2_REQUEST (R436): answered in every power state, with the telemetry of Table 19-5. -/
def execPldmType2Request (s : State) : Res :=
  if !s.clk.alive then .next s
  else .next (s.emit (.pldm 2 ([Reg.pwrStatus, Reg.power, Reg.therm].map s.reg)))

/-- ALERT_RESPONSE_READ (R436): SMB_ALERT_N is released when neither condition holds. -/
def execAlertResponseRead (s : State) : Res :=
  if s.alertDue then .next s else .next { s with board := { s.board with smbAlert := false } }

/-- SMBUS_STUCK_BUS (R436): SDA is released and the interface reset. -/
def execSmbusStuckBus (s : State) : Res := .next (s.emit .smbReset)

end Sys2Proof.Machine
end

