-- ==== Sys2Proof/Machine/Startup.lean ====
section
/-! DEFINITION. Start-up (R392, R409–R412), the device-level enable (R413, R414), DEV.CTRL.RESET (R415, R420) and
POR_N. -/

namespace Sys2Proof.Machine

/-- DEV.STATUS.STAGE is set. -/
def State.toStage (s : State) (k : Nat) : State := { s.setRegF Reg.devStatus 24 4 k with clk := { s.clk with stageAt := s.time.raw } }

-- POR_N -----------------------------------------------------------------------------------------------------------------------

/-- POR_N_ASSERT (R61, R420, R431): held for 1,000 ticks, the whole device is in reset. Fuses, the boot flash and the pins
of the ports stay; device memory is undefined until stage 4 writes it. -/
def execPorNAssert (held : Nat) (s : State) : Res :=
  if held < 1000 then .next s
  else
    let s0 := s.stopWrites fun _ => true
    let pin (n : Nat) : PortSt := { PortSt.reset with perst := (s0.port n).perst }
    .next { State.reset with
      pending := s0.pending, out := s0.out, free := s0.free, ports := [(0, pin 0), (1, pin 1)],
      mem := { s0.mem.undefineAll with poisoned := [] },
      sec := { State.reset.sec with fuses := s0.sec.fuses, flash := s0.sec.flash, rec0 := s0.sec.rec0, rec1 := s0.sec.rec1 } }

/-- POR_N_DEASSERT (R327, R392, R409, R411, R425, R436): device time starts from 0 in stage 0 with the references that
are present; SMB_ADDR is sampled; each port that PERSTn_N does not hold starts its CRS period. -/
def execPorNDeassert (refs : BitVec 3) (smbAddr : BitVec 2) (testMode : Bool) (s : State) : Res :=
  if s.clk.alive then .next s
  else
    let s1 := { s with
      time := { s.time with now := 0, cycle := 0, raw := 0, runs := (chooseRefs refs).isSome },
      clk := { s.clk with alive := true, testMode, stageAt := 0, quietSince := 0 },
      board := { s.board with smbAddr, thermTrip := false } }
    let s2 := [0, 1].foldl (fun st n => (st.setPort n { st.port n with releasedAt := 0, crs := true }).setRegB (Reg.portStatus n) 8
      (st.port n).perst) s1
    let s3 := [0, 1, 2].foldl (fun st r => if refs.getLsbD r then st.setRef r true else st) s2
    match chooseRefs refs with
    | some (a, b) => .next ((s3.setReg (Reg.pllCtrl 0) (loW a)).setReg (Reg.pllCtrl 1) (loW b))
    | none => .next s3

-- The stages --------------------------------------------------------------------------------------------------------------------

/-- ROOT_LOCK (R392, Table 18-5): PLL-A locks and is the root. TEST_MODE holds stage 0 (R425). -/
def execRootLock (s : State) : Res :=
  if !s.clk.alive || s.stage != 0 || s.clk.testMode || !s.refPresent (s.refOf 0) then .next s
  else .next (((s.setRegB Reg.pllStatus 30 true).setRegF Reg.pllStatus 31 1 0).toStage 1)

/-- A spare's index of SPARE_MAP, and whether the field is invalid (Table 16-2). -/
def spareFields (w : Word) : List Nat := (List.range 4).map fun i => fld w (5 * i) 5

/-- MAP_INVALID: an index above 17, or the same span twice. -/
def mapInvalid (w : Word) : Bool :=
  let f := spareFields w
  f.any (fun i => decide (17 < i)) || f.getD 0 0 == f.getD 1 0 || f.getD 2 0 == f.getD 3 0

/-- The two spares of a kind (R11). -/
def State.spareSpans (s : State) (k : SpanKind) : List Nat :=
  let w := s.reg Reg.spareMap
  if s.regB Reg.fuseStatus 30 then [16, 17] else [fld w (10 * kindIx k) 5, fld w (10 * kindIx k + 5) 5]

/-- The active spans of a kind in ascending order, as logical indices 0–15 (R99). -/
def State.firstMap (s : State) (k : SpanKind) : Tbl Nat :=
  let act := (List.range 18).filter fun p => !(s.spareSpans k).contains p
  (act.take 16).zipIdx.map fun (p, l) => (l, p)

/-- The lowest unblown ANTIROLLBACK bit, 0–64. -/
def State.arbFuse (s : State) : Nat :=
  ((List.range 64).find? fun i => !bit (s.fuse (48 + i / 32)) (i % 32)).getD 64

/-- The counts of HBM repairs (Table 19-6): 0 where no repair fuse is blown; what a blown field counts is free, since the
layout of the repairs is in no rule. -/
def State.senseRepairs (s : State) : State :=
  if (List.range 128).all fun i => s.fuse (78 + i) == 0 then s
  else (List.range 8).foldl (fun st i => let (w, st1) := st.takeFree; st1.setReg (Reg.hbmRepair i) (w &&& 0xFFFF)) s

/-- FUSE_SENSE (R350, R351, R353): the shadow, ARB_COUNT, the spares and the device's identity. -/
def execFuseSense (s : State) : Res :=
  if !s.clk.alive || s.stage != 1 then .next s
  else
    let fields : List (Nat × Nat) := [(Reg.locks, 50), (Reg.portRights, 51), (Reg.spareMap, 52), (Reg.part, 53),
      (Reg.serial 0, 54), (Reg.serial 1, 55), (Reg.serial 2, 56), (Reg.serial 3, 57), (Reg.mfg 0, 58), (Reg.mfg 1, 59),
      (Reg.mfg 2, 60), (Reg.mfg 3, 61), (Reg.arbLo, 48), (Reg.arbHi, 49)]
    let mask (off : Nat) : Word := if off = Reg.locks then 0xF8000000 else if off = Reg.portRights then 0x77
      else if off = Reg.spareMap then 0xFFFFF else 0xFFFFFFFF
    let s := { s with sec := { s.sec with shadow := s.senseArray } }
    let s1 := fields.foldl (fun st (off, i) => st.setReg off (st.fuse i &&& mask off)) s
    let st := at_ 31 1 ||| at_ 30 (b2n (mapInvalid (s1.reg Reg.spareMap))) ||| at_ 0 s1.arbFuse
    let s2 := (s1.setReg Reg.fuseStatus st).senseRepairs
    let ids := wordsOfBytes 4 s2.devId
    let s3 := (List.range 4).foldl (fun u i => u.setReg (Reg.deviceId i) (wd ids i)) s2
    let s4 := (s3.setRegB Reg.bootStatus 28 (!s3.debugLocked)).toStage 2
    .next ((s4.setSpanMap .enc (s4.firstMap .enc)).setSpanMap .dec (s4.firstMap .dec))

/-- The active record names bank B: the valid copy with the higher SEQNO, and bank A with none (R355). -/
def State.activeB (s : State) : Bool :=
  match s.sec.rec0.filter ActiveRec.valid, s.sec.rec1.filter ActiveRec.valid with
  | some x, some y => if x.seqNo < y.seqNo then y.bankB else x.bankB
  | some x, none => x.bankB
  | none, some y => y.bankB
  | none, none => false

/-- The image key and the microwords of a Loggia body (R349 check 4, R364). -/
def State.loggiaBody (s : State) (b : List Byte) : Option (List Byte) :=
  let body := slice b 5120 (4 * leAt b 12 4)
  if !(b.getD 6 0).getLsbD 0 then some body
  else
    match Config.kemDecaps s.kemSeed (slice b 3456 1568) with
    | none => none
    | some ss =>
      match Config.gcmOpen (s.wrapKey ss labelLoggia) (slice b 5024 12) (b.take 64) (slice b 5036 32) (slice b 5068 16) with
      | none => none
      | some key => Config.gcmOpen key (slice b 5084 12) [] body (slice b 5096 16)

/-- The Loggia header obeys Table 15-7 (R349 check 1). -/
def loggiaFormatOk (b : List Byte) : Bool :=
  leAt b 0 4 == 0x4C474941 && leAt b 4 2 == 1 && decide (leAt b 6 2 ≤ 1) && within 16 8192 (leAt b 12 4) &&
    (slice b 16 16).all (fun a => decide (a.toNat ≤ 3)) && zeroAt b 32 63 && zeroAt b 1857 1919 && zeroAt b 5112 5119 &&
    decide (5120 + 4 * leAt b 12 4 ≤ b.length)

/-- What CONC.LOGGIA.STATE is after the load, and the body (Table 15-6, R346, R349). -/
def State.judgeLoggia (s : State) : Nat × List Byte :=
  let b := s.loggiaImage
  if !s.regB Reg.locks 29 then (0, [])
  else if b.isEmpty then (1, [])
  else if !loggiaFormatOk b then (3, [])
  else if Config.shake256 64 (imgPub b) != s.hashFuse 2 then (4, [])
  else if !imgSigned (b.take (5120 + 4 * leAt b 12 4)) then (5, [])
  else match s.loggiaBody b with
    | none => (6, [])
    | some w => (2, w)

/-- The Loggia is loaded, or its region is left filled with NOP (R344, R346). -/
def State.loadLoggia (s : State) : State :=
  let (k, w) := s.judgeLoggia
  let b := s.loggiaImage
  let n := if k = 2 then leAt b 12 4 else 0
  let s1 := (s.setReg Reg.loggia (at_ 29 k ||| at_ 0 n)).setReg Reg.loggiaVersion (if k = 2 then loW (leAt b 8 4) else 0)
  { s1 with conc := { s1.conc with store := wordsOfBytes n w, attr := if k = 2 then slice b 16 16 else [] } }

/-- The results of the banks as SEC.BOOT_STATUS shows them (Table 16-5). -/
def State.bootResult (s : State) (bankB fallback : Bool) (slot svn : Nat) (ra rb : Nat) : State :=
  s.setReg Reg.bootStatus ((s.reg Reg.bootStatus &&& 0x10000000) ||| at_ 31 (b2n bankB) ||| at_ 30 (b2n fallback) |||
    at_ 29 slot ||| at_ 24 ra ||| at_ 20 rb ||| at_ 0 svn)

/-- A bank passed: its firmware and patch fill the control store (DEDUCED: the firmware's clear body is its microwords from 0x0000, as
the patch's is from 0xA000, log 83) and run, both control pairs serve, and start-up goes on; a device reset goes
straight to stage 4 (R344, R346, R357, R415). -/
def State.runBank (s : State) (b : List Byte) : State :=
  let s1 := (s.setReg Reg.fwVersion (loW (fwVer b))).setReg Reg.patchVersion (loW (leAt (patchPart b) 8 4))
  let store := { s1.conc with vendor := wordsOfBytes (min 40960 (leAt b 16 4 / 4)) ((fwPart b).drop 4096),
                              patch := wordsOfBytes (leAt (patchPart b) 16 4) ((patchBody b).getD []) }
  let s2 := { s1 with sec := { s1.sec with running := b }, conc := store }.loadLoggia
  (s2.setRegF Reg.concStatus 28 4 5).toStage (if s.clk.restart then 4 else 3)

/-- No bank passed: fault 0x0D03, Ground Floor mode, and READY for the packets that the mode serves (R359, R410). -/
def State.noBank (s : State) : State :=
  let s1 := { s with sec := { s.sec with running := [] } }.log (Report.of 0x0D00 0x0D03)
  (s1.setRegB Reg.devStatus 31 true).toStage 7

/-- BANK_SELECTION (R355, R357, R359): the active record's bank is judged, and on its failure the other one. -/
def execBankSelection (s : State) : Res :=
  if !s.clk.alive || s.stage != 2 then .next s
  else
    let firstB := s.activeB
    let bank (b : Bool) := s.bank b
    let r1 := s.judge (bank firstB)
    let slot (b : List Byte) := (s.slotOf (imgPub b)).getD 0
    let show_ (b : Bool) (fallback : Bool) (slot svn r1 r2 : Nat) : State :=
      s.bootResult b fallback slot svn (if firstB then r2 else r1) (if firstB then r1 else r2)
    if r1 = 1 then .next ((show_ firstB false (slot (bank firstB)) (fwSvn (bank firstB)) 1 0).runBank (bank firstB))
    else
      let r2 := s.judge (bank (!firstB))
      if r2 = 1 then .next ((show_ (!firstB) true (slot (bank (!firstB))) (fwSvn (bank (!firstB))) r1 1).runBank (bank (!firstB)))
      else .next ((show_ false true 0 0 r1 r2).noBank)

/-- HBM_TRAINING (R263, R409): the stacks are trained and refreshed, and the stripe groups formed. -/
def execHbmTraining (s : State) : Res :=
  if !s.clk.alive || s.stage != 3 then .next s
  else
    let s1 := (List.range 24).foldl (fun st g => st.setReg (Reg.sgStatus g) (Reg.sgReset g)) s
    .next (([0, 1, 2, 3].foldl State.restartRefresh s1).toStage 4)

/-- The map of a kind after the stage 4 self-test (R410): spans that fail are retired, and the lowest spare that is left
takes the lowest index that is. -/
def State.testedMap (s : State) (k : SpanKind) (fail : BitVec 18) : Tbl Nat × Nat :=
  let spares := (List.range 18).filter fun p => (s.spareSpans k).contains p && !fail.getLsbD p
  let (m, _, n) := (s.firstMap k).foldl (fun (acc : Tbl Nat × List Nat × Nat) (l, p) =>
    if !fail.getLsbD p then (acc.1 ++ [(l, p)], acc.2.1, acc.2.2)
    else match acc.2.1 with
      | q :: r => (acc.1 ++ [(l, q)], r, acc.2.2)
      | [] => (acc.1, [], acc.2.2 + 1)) (([] : Tbl Nat), spares, 0)
  (m, n)

/-- The self-test's outcome for the spans of a kind; each index left without a span is a fault 0x0A03 (R104, R410). -/
def State.tested (s : State) (k : SpanKind) (fail : BitVec 18) : State :=
  let (m, lost) := s.testedMap k fail
  let s1 := s.setSpanMap k m
  let s2 := { s1 with span := { s1.span with
    retired := (s1.span.retired.filter fun (x : SpanKind × Nat) => x.1 != k) ++ ((List.range 18).filter fun p => fail.getLsbD p).map fun p => (k, p) } }
  (List.range lost).foldl (fun st _ => (st.setRegB Reg.capStatus 0 true).log (Report.of (0x0A00 + kindIx k) 0x0A03))
    (s2.setReg (Reg.gated (kindIx k)) 0)

/-- SPAN_SELF_TEST_STARTUP (R409, R410): spans tested, device memory zeroed, READY set. Where SEC's own self-check fails,
fault 0x0D02 is recorded. -/
def execSpanSelfTestStartup (failEnc failDec : BitVec 18) (secPass : Bool) (s : State) : Res :=
  if !s.clk.alive || s.stage != 4 then .next s
  else
    let s1 := ((s.tested .enc failEnc).tested .dec failDec).setReg Reg.secSelftest (at_ 0 (b2n secPass))
    let s2 := { s1 with mem := s1.mem.zeroAll, clk := { s1.clk with restart := false, quietSince := s1.now } }
    let s3 := (s2.setRegB Reg.devStatus 31 true).beginBlow.toStage 5
    .next (if secPass then s3 else s3.log (Report.of 0x0D00 0x0D02))

-- Device-level enable ------------------------------------------------------------------------------------------------------------

/-- The refusal of the device-level check, if any (R413). -/
def State.levelRefusal (s : State) : Option Nat :=
  let counts := (List.range 8).map s.poolCount
  let subs := s.qs.tbl.filter fun e => e.2.en && e.2.ty == 1
  firstReason
    [(decide (counts.foldl (· + ·) 0 ≤ 131072) && decide (s.poolsEnd ≤ memEnd), 0x0808),
     (subs.all fun e => s.cqOk e.2.defaultCq e.2.fid, 0x0702),
     (s.qs.tbl.all fun e => !(e.2.en && e.2.ty != 0 && e.2.mem), 0x0303)]

/-- DEVICE_LEVEL_CHECK (R287, R413). -/
def execDeviceLevelCheck (s : State) : Res :=
  if !s.clk.checking || s.inGf then .next s
  else
    let s1 := { s with clk := { s.clk with checking := false } }
    match s.levelRefusal with
    | some r => .next ((s1.setRegF Reg.devStatus 0 16 r).setRegB Reg.devCtrl 0 false)
    | none => .next ({ s1 with bpm := { live := true, bufs := [], pools := s1.bpm.pools.mapVal fun p => { Pool.reset with rrNext := p.rrNext } } }.setRegB Reg.devStatus 30 true)

/-- ENGINE_EN may be cleared (R414). -/
def State.canClear (s : State) : Bool :=
  s.sess.all (fun e => !e.2.en) && s.dmaQuiet && s.bpm.bufs.all fun e => e.2.state == 0

/-- A write of ENGINE_EN by the holder of SEM[0] (R413, R414). -/
def State.writeEngineEn (s : State) (a : Agent) (en : Bool) : State :=
  if en == s.regB Reg.devCtrl 0 then s
  else if en then { s with clk := { s.clk with checking := true } }.setRegB Reg.devCtrl 0 true
  else if s.canClear then
    ({ s with clk := { s.clk with checking := false }, bpm := { s.bpm with live := false } }.setRegB Reg.devStatus 30 false).setRegB
      Reg.devCtrl 0 false
  else s.protoEventA a Reg.devCtrl

-- DEV.CTRL.RESET -------------------------------------------------------------------------------------------------------------------

/-- A register that DEV.CTRL.RESET leaves as it is (R415, R420, log 42). -/
def keptReg (off : Nat) : Bool :=
  off == Reg.headSeq || off == Reg.simSeq || off == Reg.capStatus || off == Reg.escalations || off == Reg.merged ||
    (decide (Reg.classCount 0 ≤ off) && decide (off ≤ Reg.lastSeq 2)) ||
    (decide (Reg.kindCount 0 ≤ off) && decide (off ≤ Reg.kindCount 15)) ||
    (decide (Reg.locks ≤ off) && decide (off ≤ Reg.hbmRepair 7)) || off == Reg.portStatus 0 || off == Reg.portStatus 1 ||
    off == Reg.ideStatus 0 || off == Reg.ideStatus 1 || off == Reg.rplStatus || off == Reg.pllCtrl 0 || off == Reg.pllCtrl 1 ||
    (decide (0x100200 ≤ off) && decide (off < 0x140000) && decide (0x200 ≤ off % 0x10000)) ||
    (decide (Reg.deviceId 0 ≤ off) && decide (off ≤ Reg.deviceId 3)) || (decide (Reg.refPpm 0 ≤ off) && decide (off ≤ Reg.refPpm 2))

/-- The registers after DEV.CTRL.RESET. -/
def State.resetRegs (s : State) : Tbl Word :=
  let r : Tbl Word := s.regs.filter fun e => keptReg e.1
  let r1 := (r.put Reg.fcStatus (s.reg Reg.fcStatus &&& 0x3F00FFFF)).put Reg.pllStatus (s.reg Reg.pllStatus &&& 0xE7FFFFFF)
  let r2 := [0, 1, 2, 3].foldl (fun t n => t.put (Reg.stackStatus n) (s.reg (Reg.stackStatus n) &&& 0x30000000)) r1
  let r3 := ((r2.put Reg.bootStatus (s.reg Reg.bootStatus &&& 0x10000000)).put Reg.concStatus (s.reg Reg.concStatus &&& 0x00FF0000)).put
    Reg.syncStatus (s.reg Reg.syncStatus &&& 0x0FF00000)
  r3.put Reg.devStatus (at_ 24 2)

/-- What an agent's own registers keep: FUSE.HASH_SEL and the copy behind FC.HIST_SEL (R420). -/
def AgentSt.devReset (a : AgentSt) : AgentSt :=
  { AgentSt.reset with hashSel := a.hashSel, win := a.win.filter fun w => w.1 == Reg.histSel }

/-- DEV.CTRL.RESET (R415, R420): links, configuration space, MSI-X tables, IDE, device time, fault history, stripe groups,
HBM training and fuses stay; everything else returns to reset; start-up runs stages 2 and 4 again. -/
def State.deviceReset (s : State) : State :=
  let s0 := s.stopWrites fun _ => true
  let s1 : State := { State.reset with
    pending := s0.pending, out := s0.out, free := s0.free, regs := s0.resetRegs,
    time := { s0.time with err := 0, phase := 0, ptmFails := 0, lastSync := none },
    agents := s0.agents.mapVal AgentSt.devReset, fns := s0.fns.mapVal fun f => { f with pba := [] }, ports := s0.ports,
    fc := { State.reset.fc with hist := s0.fc.hist.mapVal fun h => { h with acked := true } }, mem := s0.mem,
    mc := { State.reset.mc with freezes := s0.mc.freezes, second := s0.mc.second, freezeSeq := s0.mc.freezeSeq,
                                paid := s0.mc.paid, refreshBase := s0.mc.refreshBase, rpl := s0.mc.rpl },
    sec := { State.reset.sec with fuses := s0.sec.fuses, shadow := s0.sec.shadow, flash := s0.sec.flash, rec0 := s0.sec.rec0, rec1 := s0.sec.rec1 },
    clk := { State.reset.clk with alive := true, restart := true, loopK := s0.clk.loopK, lastSample := s0.clk.lastSample,
                                  lastPoll := s0.clk.lastPoll, stageAt := s0.time.raw, testMode := s0.clk.testMode,
                                  quietSince := s0.now },
    board := { s0.board with smbAlert := s0.board.smbAlert } }
  let s2 := (s1.setSpanMap .enc (s1.firstMap .enc)).setSpanMap .dec (s1.firstMap .dec)
  let s3 := { s2 with span := { s2.span with lastBoundary := s0.now / s2.span.ticks * s2.span.ticks } }.setRegB Reg.fuseStatus 29 false
  [0, 1, 2, 3].foldl (fun st n => if s0.asleep n then st.restartRefresh n else st.regrid n (s0.intervals n)) s3

/-- A write of DEV.CTRL (R413–R415, R440). -/
def State.devCtrlWrite (s : State) (a : Agent) (v : Word) : State :=
  if !s.holds0 a then (if v &&& 0x80000001 == s.reg Reg.devCtrl &&& 1 then s else s.protoEventA a Reg.devCtrl)
  else if bit v 31 then s.deviceReset
  else s.writeEngineEn a (bit v 0)

end Sys2Proof.Machine
end

