-- ==== Sys2Proof/Machine/Faults.lean ====
section
/-! DEFINITION. Faults of the Concourse (R335, R343, R347), control tables (Table 17-3), FAULT_INJECT and FAULT_ACK
(R382–R385), and the Ground Floor service (R386, R388). -/

namespace Sys2Proof.Machine

-- The Concourse -----------------------------------------------------------------------------------------------------------------

/-- The packet of a context ends with a status and V0 = the last keystone; CONC.LAST_ABORT records it (R343, Table
15-4). The context is free, its journal gone. -/
def State.endCtx (s : State) (c : Ctx) (cause status reason : Nat) : State :=
  let x := s.ctx c
  match s.running? c with
  | none => s.freeCtx c
  | some p =>
    let s1 := (s.setReg Reg.lastAbort (at_ 16 (x.lastKey % 65536) ||| at_ 8 p.opc ||| at_ 0 cause)).bumpSat Reg.concStatus 16 8 (if cause = 4 then 0 else 1)
    let vals := [loW x.lastKey, 0, 0, 0]
    if status = 0x20 then s1.abortPacket p vals else (s1.produce p p.cq status reason s1.now vals).endPacket p.id

/-- The contexts of a pair. -/
def pairCtxs (n : Fin 2) : List Ctx := (List.range 8).map fun i => { pair := n, slot := Fin.ofNat 8 i }

/-- Packets run in the pair's contexts. -/
def State.pairBusy (s : State) (n : Fin 2) : Bool := (pairCtxs n).any fun c => (s.running? c).isSome

/-- The pair of a number. -/
def pairNo (n : Nat) : Fin 2 := if n = 0 then 0 else 1

/-- A control pair mismatch (R335): packets end ABORTED, the pair releases its semaphores and tests itself; a pair in its self-test
has nothing more to do (R385). -/
def State.pairFault (s : State) (n : Nat) (o : Origin) : Recorded :=
  let k := pairNo n
  let r := reportOf (0x0500 + n) 0x0501 o
  if s.classOf r ≠ 1 then s.report r
  else if s.pairState n = 2 then
    let x := s.merging r false fun st => st.record { r with reaction := 0 }
    if !r.injected && (s.twin r).isSome then { x with st := { x.st with conc := { x.st.conc with testSeq := x.st.conc.testSeq.put n x.seq } } }
    else x
  else
    let x := s.report { r with reaction := if s.pairBusy k then 2 else 7 }
    let s1 := (pairCtxs k).foldl (fun st c => st.endCtx c 3 0x20 0) x.st
    let s2 := (s1.heldBy fun c => c == pairCode k).foldl (fun st m => st.setHolder m 0) s1
    let s3 := (s2.setRegF Reg.concStatus (28 + 2 * n) 2 2).setOutcome x.seq 1
    { x with st := { s3 with conc := { s3.conc with testSeq := s3.conc.testSeq.put n x.seq } } }

/-- PAIR_MISMATCH (R335). -/
def execPairMismatch (p : Fin 2) (s : State) : Res :=
  let late := s.pairState p.val == 2 && (s.twin (Report.of (0x0500 + p.val) 0x0501)).isSome
  if !(s.pairState p.val == 1 || late) || s.inGf || s.clk.inDeep then .next s else .next (s.pairFault p.val none).st

/-- PAIR_SELF_TEST_END (R335): SERVING again, or RETIRED until the next device reset. -/
def execPairSelfTestEnd (p : Fin 2) (pass : Bool) (s : State) : Res :=
  if s.pairState p.val != 2 || s.inGf then .next s
  else
    .next ((s.setRegF Reg.concStatus (28 + 2 * p.val) 2 (if pass then 1 else 3)).setOutcome (s.conc.testSeq.get p.val 0)
      (if pass then 2 else 5))

/-- A watchdog expiry or illegal microword (R343): contained in vendor firmware, corrected and logged in Loggia code
(R347). -/
def State.codeFault (s : State) (c : Ctx) (cause : Nat) (o : Origin) : Recorded :=
  let x := s.ctx c
  let unit := 0x0500 + c.pair.val
  if (x.loggia || decide (0xE000 ≤ x.pc)) && o.isNone then
    let y := s.report { Report.of unit 0x0503 with reaction := 2 }
    { y with st := y.st.endCtx c cause 0x20 0 }
  else
    let r := reportOf unit 0x0502 o
    if s.classOf r ≠ 1 then s.report r
    else
      let y := s.report { r with reaction := if x.packet.isSome then 2 else 0 }
      { y with st := y.st.endCtx c cause 0x20 0 }

/-- A breach of the Loggia's limits (R347). -/
def State.sandboxBreach (s : State) (c : Ctx) : State :=
  (s.report { Report.of (0x0500 + c.pair.val) 0x0503 with reaction := 2 }).st.endCtx c 4 0x16 0x0608

/-- Microcycles since the context's last keystone in which it executed or stalled (R343): those its microwords counted, and those that
have passed since it last began or since its pair turned to it. -/
def State.watchCount (s : State) (c : Ctx) : Nat :=
  let x := s.ctx c
  x.watchdog + (s.cyc - max x.ranAt (s.turn c.pair).since)

/-- WATCHDOG_EXPIRY (R343): the count of a context that executes has passed 4,096; WAIT suspends it. -/
def execWatchdogExpiry (c : Ctx) (s : State) : Res :=
  if !s.ctxReady c || !s.hasTurn c || !s.pairServes c.pair.val || s.inGf || s.clk.inDeep || decide (s.watchCount c ≤ 4096) then .next s
  else .next (s.codeFault c 1 none).st

-- Control tables -------------------------------------------------------------------------------------------------------------------

/-- CONTROL_TABLE_ERROR (Table 17-3 codes 0x0901 and 0x0902). -/
def execControlTableError (table : Fin 7) (corrected : Bool) (s : State) : Res :=
  if !s.clk.alive then .next s
  else .next (s.log (Report.of (0x0900 + table.val) (if corrected then 0x0901 else 0x0902)))

-- FAULT_ACK ------------------------------------------------------------------------------------------------------------------------

/-- FAULT_ACK of this function newly acknowledges the entry (R382). -/
def Hist.acksAt (h : Hist) (fid p0 : Nat) : Bool :=
  !h.acked && decide ((loW (h.seq + 2 ^ 32 - p0)).toInt ≤ 0) && (isPf fid || h.fid == some fid)

/-- FAULT_ACK (R382). -/
def execFaultAck (c : Ctx) (s : State) : Res :=
  .next (s.atKeystone c 0x81 (fun _ => []) fun p =>
    let p0 := (p.p 0).toNat
    let n := s.fc.hist.count fun _ h => h.acksAt p.fid p0
    let s1 := { s with fc := { s.fc with hist := s.fc.hist.mapIf (fun _ h => h.acksAt p.fid p0) fun h => { h with acked := true } } }
    s1.syncUnacked.done p [loW n, 0, 0, 0])

-- FAULT_INJECT -----------------------------------------------------------------------------------------------------------------------

/-- Instances of a unit kind (Table 17-2). -/
def kindCount (k : Nat) : Nat := [0, 18, 18, 4, 4, 2, 256, 3, 24, 7, 2, 128, 7, 1].getD k 0

/-- The unit exists and is not retired. -/
def State.unitOk (s : State) (u : Nat) : Bool :=
  let k := u / 256
  let i := u % 256
  decide (u < 65536) && decide (i < kindCount k) &&
    (if k = 1 then !s.isRetired .enc i else if k = 2 then !s.isRetired .dec i
     else if k = 5 then s.pairState i != 3 else if k = 0x0B then s.fnExists i else true)

/-- The checks of FAULT_INJECT (R383). -/
def State.injectChecks (s : State) (p : Packet) : List (Option Refuse) :=
  let u := (p.p 0).toNat
  let row := faultRow (p.p 1).toNat
  [need (s.unitOk u) (badParam 0x0204 0),
   need ((faultTable.any fun r => r.code == (p.p 1).toNat) && row.inj && decide (row.code / 256 = u / 256)) (badParam 0x0204 1),
   need (decide ((p.p 2).toNat ≤ 2) && decide (row.cls ≤ (p.p 2).toNat)) (badParam 0x0204 2),
   need (decide ((p.p 3).toNat ≤ 100000000)) (badParam 0x0204 3)]

/-- FAULT_INJECT (R383): the injection waits for its tick. -/
def execFaultInject (c : Ctx) (s : State) : Res :=
  .next (s.atKeystone c 0x80 s.injectChecks fun p =>
    let i : Injection :=
      { packet := p.id, unit := (p.p 0).toNat, code := (p.p 1).toNat, cls := (p.p 2).toNat, due := s.now + (p.p 3).toNat }
    let s1 := s.leaveCtx c p .injecting
    { s1 with fc := { s1.fc with injections := s1.fc.injections ++ [i] } })

/-- The lowest flow of a scheduler that satisfies `p`. -/
def State.flowWhere (s : State) (k : Nat) (p : Nat → Flow → Bool) : Option Nat :=
  (s.flows.find? fun e => s.flowSched e.1 == k && p e.1 e.2).map (·.1)

/-- An injected fault of a Tollgate scheduler, on the lowest flow it concerns (log 48). -/
def State.gateFault (s : State) (k code : Nat) (o : Origin) : Recorded :=
  let r := reportOf (0x0700 + k) code o
  let on (f : Nat) (reaction : Nat) : Report := { r with session := some (f / 8), detail := f, reaction }
  let hit := if code = 0x0701 then s.flowWhere k fun _ x => !x.frames.isEmpty
    else if code = 0x0702 then s.flowWhere k fun f _ => (s.writing (f / 8)).isSome
    else s.flowWhere k fun _ x => x.state == 1
  match hit with
  | none => (if code = 0x0702 && decide (s.classOf r < 2) then s.bumpSat Reg.parityErrors 0 32 1 else s).report r
  | some f =>
    if s.classOf r ≥ 2 then s.report (on f 0)
    else if code = 0x0701 then s.poisonFault f (on f 3)
    else if code = 0x0702 then
      match s.writing (f / 8) with
      | some g => s.uncommittedFault f g o
      | none => s.report r
    else s.merging (on f 2) true fun st => let x := st.report (on f 2); { x with st := x.st.haltFlow f 1 }

/-- An injected fault of a Viaduct channel (log 48). -/
def State.chanFault (s : State) (n code : Nat) (o : Origin) : Recorded :=
  let c := s.chan n
  let r := reportOf (0x0600 + n) code o
  if s.classOf r ≥ 2 then s.report r
  else if code = 0x0601 && (c.state == 1 || c.state == 2 || (s.twin r).isSome) then
    s.merging { r with reaction := 2 } false fun st =>
      let x := st.report { r with reaction := 2 }
      { x with st := x.st.haltChan n 1 0 State.abort }
  else match c.xfer with
    | some t =>
      let x := s.report r
      if code = 0x0603 && decide (t.written < t.issued) && t.srcBus then
        { x with st := x.st.emitRead c.owner (t.src + t.written) (t.segLen t.written) }
      else x
    | none => s.report r

/-- The fault of an injection with the reaction of its unit (R383, R384). -/
def State.injected (s : State) (i : Injection) (fid : Nat) : Recorded :=
  let n := i.unit % 256
  let o : Origin := some (i.cls, fid)
  match i.unit / 256 with
  | 1 => s.spanFault .enc n i.code o
  | 2 => s.spanFault .dec n i.code o
  | 3 => s.vbFault n o
  | 4 => s.mzFault n (s.analysing n) o
  | 5 => if i.code = 0x0501 then s.pairFault n o
         else s.codeFault (((pairCtxs (pairNo n)).find? fun c => (s.running? c).isSome).getD { pair := pairNo n, slot := 0 }) 2 o
  | 6 => s.chanFault n i.code o
  | 7 => s.gateFault n i.code o
  | 8 => s.memFault n i.code o
  | 12 => if i.code = 0x0C01 && decide (n < 2) then s.pllInjected n o else s.report (reportOf i.unit i.code o)
  | _ => s.report (reportOf i.unit i.code o)

/-- INJECTED_FAULT_FIRE (R383): at its tick the fault is recorded, and the packet completes with its SEQ. -/
def execInjectedFaultFire (packet : Nat) (s : State) : Res :=
  match s.fc.injections.find? fun i => i.packet == packet, s.packet? packet with
  | some i, some p =>
    if s.now < i.due then .next s
    else
      let s1 := { s with fc := { s.fc with injections := s.fc.injections.filter fun j => j.packet != packet } }
      let x := s1.injected i p.fid
      match x.st.packet? packet with
      | some q => .next (x.st.done q [loW x.seq, 0, 0, 0])
      | none => .next x.st
  | _, _ => .next s

-- The Ground Floor service -------------------------------------------------------------------------------------------------------------

/-- A channel's kicks end ABORTED. -/
def State.abortKicks (s : State) (n : Nat) : State :=
  let c := s.chan n
  let s1 := (s.unpinAll c.held).setChan n
    { c with state := if c.state = 3 then 3 else 0, kicks := [], xfer := none, trig := none, left := 0, bytes := 0,
             stopping := false, pins := [] }
  c.kicks.foldl (fun st id => st.finishKick id State.abort) s1

/-- A session as the service leaves it: EN is 0 (Table 17-8). -/
def State.stopSession (s : State) (i : Nat) : State :=
  let s1 := s.disableSession i fun x => x
  (List.range 6).foldl (fun st k => st.settleFlow (flowId i k)) s1

/-- Every dispatched packet completes ABORTED, frames in empty crossings, and EN is 0 on every session (Table 17-8). -/
def State.abortAll (s : State) : State :=
  let s1 := (s.span.frames.map (·.id)).foldl (fun st id => st.endNow id 0x20) s
  let s2 := (s1.dma.map (·.1)).foldl State.abortKicks s1
  let s3 := { s2.stopWrites (fun w => w.packet.isSome) with fc := { s2.fc with injections := [] } }
  let s4 := (s3.qs.packets.filter fun p => p.state != .fetched).foldl (fun st p => st.abortPacket p [0, 0, 0, 0]) s3
  let s5 := { s4 with conc := { s4.conc with ctxs := [] } }
  (s5.sess.map (·.1)).foldl State.stopSession s5

/-- GROUND_FLOOR_SERVICE (R386, R388): the service starts on pair 0 if that passes its self-test, and otherwise on pair
1; with neither, only the hardware parts of R387 remain. -/
def execGroundFloorService (pass0 pass1 : Bool) (s : State) : Res :=
  if !s.inGf || s.fc.gfService || s.fc.gfDead then .next s
  else if !pass0 && !pass1 then
    .next ({ s with fc := { s.fc with gfDead := true } }.setRegF Reg.concStatus 28 4 15)
  else
    let s1 := { s with fc := { s.fc with gfService := true } }.abortAll
    .next (if pass0 then s1.setRegF Reg.concStatus 28 2 1
           else (s1.setRegF Reg.concStatus 28 2 3).setRegF Reg.concStatus 30 2 1)

end Sys2Proof.Machine
end

