-- ==== Sys2Proof/Machine/RegRead.lean ====
section
/-! DEFINITION. Reads of the register window (R416–R422): the value of every register of Tables 19-4 to 19-19 as
one reader sees it, what a read does beside returning it, and what a VF sees. -/

namespace Sys2Proof.Machine

-- The window ------------------------------------------------------------------------------------------------------------------

/-- Register `off` is one of `n` registers, 4 bytes apart, from `base` on. -/
def Reg.within (off base n : Nat) : Bool := decide (base ≤ off) && decide (off < base + 4 * n)

/-- Index of register `off` in a run that starts at `base`. -/
def Reg.ix (off base : Nat) : Nat := (off - base) / 4

/-- The _LO/_HI pairs (R8): offset of _LO and of _HI. -/
def Reg.pairs : List (Nat × Nat) :=
  [(Reg.apwinLo, Reg.apwinHi), (Reg.arbLo, Reg.arbHi), (Reg.pendLo, Reg.pendHi), (Reg.grpPendLo, Reg.grpPendHi),
   (Reg.grpOpenLo, Reg.grpOpenHi), (Reg.timeLo, Reg.timeHi), (Reg.readBytesLo, Reg.readBytesHi),
   (Reg.writeBytesLo, Reg.writeBytesHi), (Reg.roundBaseLo, Reg.roundBaseHi)] ++
  ((List.range 3).map fun k => (Reg.schedBytesLo k, Reg.schedBytesHi k)) ++
  ((List.range 4).map fun n => (Reg.diagAddrLo n, Reg.diagAddrHi n)) ++
  ((List.range 4).map fun n => (Reg.diagTimeLo n, Reg.diagTimeHi n))

/-- The _HI register of the pair whose _LO is `off`. -/
def Reg.hiOf (off : Nat) : Option Nat := (Reg.pairs.find? fun p => p.1 == off).map (·.2)

/-- The _LO register of the pair whose _HI is `off`. -/
def Reg.loOf (off : Nat) : Option Nat := (Reg.pairs.find? fun p => p.2 == off).map (·.1)

/-- The lowest VF_VIEW that shows the register (Table 19-20); none for a register in no view. -/
def Reg.view (off : Nat) : Option Nat :=
  let run (base n : Nat) := Reg.within off base n
  if run Reg.devStatus 5 || run Reg.apwinLo 4 || run (Reg.semLock 0) 66 || off / 65536 == 4 ||
      run Reg.srcPendSet 2 || run Reg.istSel 3 || run (Reg.istData 0) 5 || run Reg.timeLo 2 || off == Reg.syncStatus ||
      run Reg.qtSel 5 || run (Reg.qtData 0) 8 || off == Reg.snapSel || run (Reg.snapWord 0) 16 || off == Reg.statSel ||
      run (Reg.statWord 0) 16 || off == Reg.flowSel || run (Reg.flowWord 0) 16 || off == Reg.btSel ||
      run (Reg.btWord 0) 4 || off == Reg.keySlotSel || run (Reg.keySlotWord 0) 4 then some 0
  else if run (Reg.timerCtrl 0) 128 || run Reg.chSel 4 || run (Reg.chData 0) 4 then some 1
  else if off / 65536 == 7 || off == Reg.pllStatus || run Reg.pwrStatus 5 || run Reg.vtrim 5 || run (Reg.estClass 0) 8 ||
      run (Reg.hbmTemp 0) 4 || run (Reg.tsense 0) 24 then some 2
  else none

/-- A register in a VF's view that is attached to no object, mailbox end or capture of the VF (R422); registers whose
writable fields are RWS are judged by R47 instead. -/
def Reg.deviceWide (off : Nat) : Bool :=
  let run (base n : Nat) := Reg.within off base n
  run Reg.devStatus 2 || run (Reg.portStatus 0) 2 || run Reg.fwVersion 2 || run Reg.tieNext 2 || off == Reg.endsFree ||
    run Reg.timeLo 2 || off == Reg.syncStatus || off / 65536 == 1 ||
    (off / 65536 == 7 && !(off == Reg.histSel || run (Reg.histWord 0) 8 || off == Reg.injCtrl))

/-- The register stands in the agent's window: it is assigned, and a VF has it in its view; a timer that is not the
VF's own lies outside it (R417, R421). -/
def State.inView (s : State) (a : Agent) (off : Nat) : Bool :=
  Reg.assigned off && (!a.isVf ||
    match Reg.view off with
    | some k => decide (k ≤ s.vfView) &&
        (!Reg.within off (Reg.timerCtrl 0) 128 || s.ownsTimer (Reg.ix off (Reg.timerCtrl 0) % 64) a)
    | none => false)

-- Values ----------------------------------------------------------------------------------------------------------------------

/-- DEV (Table 19-4). -/
def State.devValue (s : State) (a : Agent) (off : Nat) : Word :=
  let x := s.agent a.code
  if off = Reg.devFunc then at_ 8 a.code ||| at_ 0 ((a.fid?).getD 0)
  else if off = Reg.apwinLo then x.apwinLo
  else if off = Reg.apwinHi then x.apwinHi
  else if off = Reg.sessSel then (s.window a.code Reg.sessSel).sel
  else if off = Reg.sessHalf then at_ 0 (b2n x.sessHalf)
  else if 0x40 ≤ off then s.winWord a.code Reg.sessSel (Reg.ix off 0x40 + 32 * b2n x.sessHalf)
  else s.reg off

/-- CLKPWR (Table 19-5): joules and milliseconds come from finer counts. -/
def State.clkValue (s : State) (off : Nat) : Word :=
  if off = Reg.energy then loW (s.clk.energy / 8000)
  else if Reg.within off (Reg.stepMs 0) 3 then loW (s.clk.stepTicks.get (Reg.ix off (Reg.stepMs 0)) 0 / 100000)
  else if off = Reg.deepMs then loW (s.clk.deepTicks / 100000)
  else s.reg off

/-- FUSE (Table 19-6): HASH_WORD shows the hash that the reader selected. -/
def State.fuseValue (s : State) (a : Agent) (off : Nat) : Word :=
  let sel := (s.agent a.code).hashSel.toNat
  if off = Reg.hashSel then loW sel
  else if Reg.within off (Reg.hashWord 0) 16 then
    if s.regB Reg.fuseStatus 31 && decide (sel < 3) then s.fuse (16 * sel + Reg.ix off (Reg.hashWord 0)) else 0
  else s.reg off

/-- MBX (Table 19-8). -/
def State.mbxValue (s : State) (a : Agent) (off : Nat) : Word :=
  if off < Reg.chStatus 0 then s.chCtrlRead (Reg.ix off (Reg.chCtrl 0)) a.code
  else if off < Reg.outWord 0 then s.chStatusRead (Reg.ix off (Reg.chStatus 0)) a.code
  else if off < Reg.crossTicks then 0
  else if off = Reg.pendLo then s.mbxPend a.code 0
  else if off = Reg.pendHi then s.mbxPend a.code 1
  else if off = Reg.endsFree then loW s.endsFree
  else s.reg off

/-- A group has a source held or deliverable (Table 19-9). -/
def State.groupPending (s : State) (g : Nat) : Bool := s.ic.ist.any fun e => e.1 / 16 == g && s.deliverable e.1

/-- IC (Table 19-9). -/
def State.icValue (s : State) (a : Agent) (off : Nat) : Word :=
  if off = Reg.srcPendSet ∨ off = Reg.srcPendClr ∨ off = Reg.istCommit then 0
  else if Reg.within off (Reg.icClaim 0) 8 then 0
  else if off = Reg.istSel then (s.window a.code Reg.istSel).sel
  else if off = Reg.istStatus then s.commitStatus a.code Reg.istStatus s.qs.istTie
  else if off = Reg.grpPendLo then maskOf 32 s.groupPending
  else if off = Reg.grpPendHi then maskOf 32 fun b => s.groupPending (32 + b)
  else if off = Reg.grpOpenLo then maskOf 32 s.groupOpen
  else if off = Reg.grpOpenHi then maskOf 32 fun b => s.groupOpen (32 + b)
  else if Reg.within off (Reg.istData 0) 5 then
    let w := Reg.ix off (Reg.istData 0)
    s.winWord a.code Reg.istSel w &&& wd istReadMasks w
  else if Reg.within off (Reg.grpHoldoff 0) 64 then
    let g := Reg.ix off (Reg.grpHoldoff 0)
    setBit (setBit (s.reg off) 31 (s.groupOpen g)) 30 (s.groupHolds g && s.groupPending g)
  else s.reg off

/-- TMR (Table 19-10). -/
def State.tmrValue (s : State) (off : Nat) : Word :=
  if off = Reg.timeLo then loW s.now else if off = Reg.timeHi then hiW s.now else s.reg off

/-- FC (Table 19-11). -/
def State.fcValue (s : State) (a : Agent) (off : Nat) : Word :=
  if off = Reg.histSel then (s.window a.code Reg.histSel).sel
  else if Reg.within off (Reg.histWord 0) 8 then s.winWord a.code Reg.histSel (Reg.ix off (Reg.histWord 0))
  else if off = Reg.injPending then loW (s.fc.injections.length % 65536)
  else s.reg off

/-- Submission queues of a port with entries ready (Table 19-12). -/
def State.readyQueues (s : State) (n : Nat) : Nat :=
  s.qs.tbl.count fun _ x => x.ty == 1 && portOf x.fid == n && x.readyCount != 0

/-- QT (Table 19-12). -/
def State.qtValue (s : State) (a : Agent) (off : Nat) : Word :=
  if off = Reg.qtSel then (s.window a.code Reg.qtSel).sel
  else if off = Reg.qtCommit then 0
  else if off = Reg.qtStatus then s.commitStatus a.code Reg.qtStatus s.qs.tie
  else if off = Reg.funcInflight then (match a with | .fn f => loW (s.inflightOf f.val) | .cp _ => 0)
  else if off = Reg.funcLimit then (match a with | .fn f => loW (fnLimit f.val) | .cp _ => 0)
  else if off = Reg.freeCount then loW (8192 - s.qs.tbl.count fun _ x => x.ty != 0)
  else if Reg.within off (Reg.portReady 0) 2 then loW (s.readyQueues (Reg.ix off (Reg.portReady 0)))
  else s.winWord a.code Reg.qtSel (Reg.ix off (Reg.qtData 0))

/-- Channels of word `i` of a mask register in a state (Table 19-13). -/
def State.chanMask (s : State) (i st : Nat) : Word := maskOf 32 fun b => (s.chan (32 * i + b)).state == st

/-- DMA (Table 19-13). -/
def State.dmaValue (s : State) (a : Agent) (off : Nat) : Word :=
  if off = Reg.chSel then (s.window a.code Reg.chSel).sel
  else if off = Reg.chCommit ∨ off = Reg.chCmd then 0
  else if off = Reg.dmaChStatus then s.commitStatus a.code Reg.dmaChStatus s.qs.chTie
  else if off = Reg.stageUsed then loW s.stageUsed
  else if Reg.within off (Reg.outstanding 0) 2 then loW (s.readsOut (some (Reg.ix off (Reg.outstanding 0))))
  else if off = Reg.outstandingDev then loW (s.readsOut none)
  else if off = Reg.assignedCount then loW (s.dma.count fun _ c => c.assigned)
  else if off = Reg.kicksQueued then loW ((s.dma.map fun e => e.2.kicks.length - 1).foldl (· + ·) 0)
  else if Reg.within off (Reg.chData 0) 4 then s.winWord a.code Reg.chSel (Reg.ix off (Reg.chData 0))
  else if Reg.within off (Reg.runMask 0) 8 then s.chanMask (Reg.ix off (Reg.runMask 0)) 1
  else if Reg.within off (Reg.waitMask 0) 8 then s.chanMask (Reg.ix off (Reg.waitMask 0)) 2
  else if Reg.within off (Reg.haltMask 0) 8 then s.chanMask (Reg.ix off (Reg.haltMask 0)) 3
  else s.reg off

/-- BPM (Table 19-14). -/
def State.bpmValue (s : State) (a : Agent) (off : Nat) : Word :=
  let p := Reg.ix off (Reg.poolCfg 0) % 8
  if off = Reg.btSel then (s.window a.code Reg.btSel).sel
  else if Reg.within off (Reg.btWord 0) 4 then s.winWord a.code Reg.btSel (Reg.ix off (Reg.btWord 0))
  else if Reg.within off (Reg.poolStat 0) 8 then at_ 31 (b2n (s.pool p).rrNext) ||| at_ 0 (s.poolFree p)
  else if Reg.within off (Reg.poolDrain 0) 8 then loW (s.poolDraining p)
  else if Reg.within off (Reg.poolRetired 0) 8 then loW (s.poolRetired p)
  else s.reg off

/-- PACE (Table 19-15). -/
def State.paceValue (s : State) (a : Agent) (off : Nat) : Word :=
  if off = Reg.flowSel then (s.window a.code Reg.flowSel).sel
  else if off = Reg.flowsRun then loW (s.flows.count fun _ f => f.state == 1)
  else if off = Reg.flowsHalted then loW (s.flows.count fun _ f => f.state == 2)
  else if off = Reg.flightMib then loW ((s.sess.map fun e => e.2.flights).foldl (· + ·) 0 / 1048576 % 65536)
  else if Reg.within off (Reg.flowWord 0) 16 then s.winWord a.code Reg.flowSel (Reg.ix off (Reg.flowWord 0))
  else s.reg off

/-- MC (Table 19-16). -/
def State.mcValue (s : State) (a : Agent) (off : Nat) : Word :=
  if off = Reg.rplSel then (s.window a.code Reg.rplSel).sel
  else if off = Reg.rplData then s.winWord a.code Reg.rplSel 0
  else if off = Reg.rplStatus then (s.reg off &&& 0x80000000) ||| at_ 0 s.mc.rpl.length
  else if off % 0x10000 = 0x128 then loW (s.combining ((off - 0x100000) / 0x10000)).length
  else s.reg off

/-- The kind of span a register pair's index names: 0 encode, 1 decode. -/
def ixKind (i : Nat) : SpanKind := if i = 0 then .enc else .dec

/-- SPAN (Table 19-17). -/
def State.spanValue (s : State) (a : Agent) (off : Nat) : Word :=
  let k (base : Nat) : SpanKind := ixKind (Reg.ix off base)
  if off = Reg.statSel then (s.window a.code Reg.statSel).sel
  else if off = Reg.overcommitCount then loW (s.sess.count fun _ x => x.overcommitted)
  else if Reg.within off (Reg.unreserved 0) 2 then loW (s.unreserved (k (Reg.unreserved 0)))
  else if Reg.within off (Reg.homeSize 0) 2 then s.homeSize (k (Reg.homeSize 0))
  else if Reg.within off (Reg.mapEs 0) 4 then s.mapReg .enc (Reg.ix off (Reg.mapEs 0))
  else if Reg.within off (Reg.mapDs 0) 4 then s.mapReg .dec (Reg.ix off (Reg.mapDs 0))
  else if Reg.within off (Reg.spanRetired 0) 2 then maskOf 18 fun i => s.span.retired.contains (k (Reg.spanRetired 0), i)
  else if Reg.within off (Reg.spanBusy 0) 2 then maskOf 18 (s.busy (k (Reg.spanBusy 0)))
  else if Reg.within off (Reg.spanSelfTest 0) 2 then
    maskOf 18 fun i => s.span.testing.any fun t => t.kind == k (Reg.spanSelfTest 0) && t.phys == i
  else if Reg.within off (Reg.statWord 0) 16 then s.winWord a.code Reg.statSel (Reg.ix off (Reg.statWord 0))
  else s.reg off

/-- CONC (Table 19-18); a pair that does not serve has no free context. -/
def State.concValue (s : State) (a : Agent) (off : Nat) : Word :=
  let free (k : Nat) := if s.pairServes k then (s.freeCtxs k).length else 0
  if off = Reg.snapSel then (s.window a.code Reg.snapSel).sel
  else if off = Reg.contexts then at_ 8 (free 1) ||| at_ 0 (free 0)
  else if Reg.within off (Reg.snapWord 0) 16 then s.winWord a.code Reg.snapSel (Reg.ix off (Reg.snapWord 0))
  else s.reg off

/-- SEC (Table 19-19). -/
def State.secValue (s : State) (a : Agent) (off : Nat) : Word :=
  let mask (base st : Nat) := maskOf 32 fun b => (s.sec.slots.get (32 * Reg.ix off base + b) KeySlot.reset).state == st
  if off = Reg.keySlotSel then (s.window a.code Reg.keySlotSel).sel
  else if Reg.within off (Reg.keySlotWord 0) 4 then s.winWord a.code Reg.keySlotSel (Reg.ix off (Reg.keySlotWord 0))
  else if Reg.within off (Reg.loadedMask 0) 4 then mask (Reg.loadedMask 0) 1
  else if Reg.within off (Reg.erasingMask 0) 4 then mask (Reg.erasingMask 0) 2
  else s.reg off

/-- The current value of an assigned register as an agent reads it, with no effect of the read; SEM.LOCK, IN_WORD and
CLAIM, whose reads act, are read by their own operations. -/
def State.regValue (s : State) (a : Agent) (off : Nat) : Word :=
  match off / 65536 with
  | 0x00 => s.devValue a off
  | 0x01 => s.clkValue off
  | 0x02 => s.fuseValue a off
  | 0x04 => s.mbxValue a off
  | 0x05 => s.icValue a off
  | 0x06 => s.tmrValue off
  | 0x07 => s.fcValue a off
  | 0x08 => s.qtValue a off
  | 0x0A => s.dmaValue a off
  | 0x0C => s.bpmValue a off
  | 0x0E => s.paceValue a off
  | 0x10 => s.mcValue a off
  | 0x11 => s.mcValue a off
  | 0x12 => s.mcValue a off
  | 0x13 => s.mcValue a off
  | 0x14 => s.spanValue a off
  | 0x18 => s.concValue a off
  | 0x1C => s.secValue a off
  | _ => s.reg off

-- Reads -----------------------------------------------------------------------------------------------------------------------

/-- The RC field of a register (R4): its bits, 0 where it has none. -/
def Reg.rcMask (off : Nat) : Word :=
  if off = Reg.therm then 0x00FF0000
  else if off = Reg.stagePeak then 0x7FF
  else if off = Reg.keyGapPeak then 0x1FFF
  else if 0x100000 ≤ off ∧ off < 0x140000 ∧ off % 0x10000 = 0x134 then 0xF
  else 0

/-- Bits of a register whose value the spec leaves open: the power estimates (R403), and SECTORS while a write runs
(R360). -/
def State.openBits (s : State) (off : Nat) : Word :=
  if off = Reg.power then 0xFFFF
  else if Reg.within off (Reg.estClass 0) 7 then 0xFFFF
  else if off = Reg.fwWrite ∧ s.regB Reg.fwWrite 31 then 0xFF
  else 0

/-- A read of a register in the agent's view: its value, and what the read does. A semaphore is asked for (R50), a word
popped (R56), a source claimed (R316), an RC field cleared for every reader but a VF's read (R6, R422), a _HI half
latched or given from its latch (R8). -/
def State.regRead (s : State) (a : Agent) (off : Nat) : Word × State :=
  if Reg.within off (Reg.semLock 0) 64 then
    let (w, s1) := s.lockRead (Reg.ix off (Reg.semLock 0)) a
    (loW w, s1)
  else if Reg.within off (Reg.inWord 0) 64 then
    match s.pop (Reg.ix off (Reg.inWord 0)) a.code with
    | some r => r
    | none => (0, s.protoEventA a off)
  else if Reg.within off (Reg.icClaim 0) 4 then s.claimRead (Fin.ofNat 4 (Reg.ix off (Reg.icClaim 0))) a
  else if s.openBits off ≠ 0 then
    let (w, s1) := s.takeFree
    let m := s.openBits off
    ((s.regValue a off &&& ~~~m) ||| (w &&& m), s1)
  else if Reg.rcMask off ≠ 0 then
    (s.regValue a off, if a.isVf then s else s.setReg off (s.reg off &&& ~~~(Reg.rcMask off &&& ~~~(s.freshBits off))))
  else match Reg.hiOf off with
    | some hi =>
      let x := s.agent a.code
      (s.regValue a off, s.setAgent a.code { x with latch := x.latch.put off (s.regValue a hi) })
    | none =>
      match Reg.loOf off with
      | some lo =>
        let x := s.agent a.code
        match x.latch.find lo with
        | some w => (w, s.setAgent a.code { x with latch := x.latch.del lo })
        | none => (s.regValue a off, s)
      | none => (s.regValue a off, s)

/-- One 4-byte read at any offset: an offset outside the agent's window reads 0 (R417, R47). -/
def State.readAt (s : State) (a : Agent) (off : Nat) : Word × State :=
  if s.inView a off then s.regRead a off else (0, s)

/-- A register read of a size (R418): 4 bytes, or 8 bytes as two reads, lower offset first; any other returns zeros. -/
def State.readAccess (s : State) (a : Agent) (off size : Nat) : State :=
  if !s.live a then s
  else if size = 4 && off % 4 = 0 then
    let (w, s1) := s.readAt a off
    s1.emit (.readWord off w)
  else if size = 8 && off % 8 = 0 then
    let (w, s1) := s.readAt a off
    let (w2, s2) := s1.readAt a (off + 4)
    (s2.emit (.readWord off w)).emit (.readWord (off + 4) w2)
  else s.emit (.readWord off 0)

/-- RC_READ (R6): a read of a register with an RC field; every other register's read is the same access. -/
def execRcRead (a : Agent) (offset size : Nat) (s : State) : Res := .next (s.readAccess a offset size)

/-- PAIR_LO_READ (R8). -/
def execPairLoRead (a : Agent) (offset size : Nat) (s : State) : Res := .next (s.readAccess a offset size)

end Sys2Proof.Machine
end

