-- ==== Sys2Proof/Machine/RegWrite.lean ====
section
/-! DEFINITION. Writes of the register window (R4, R7, R37, R38, R412, R417, R418, R422, R440): every register of
Tables 19-4 to 19-19 field by field under its access codes, the commands that are writes of one register, and the
aperture window (R45, R46). -/

namespace Sys2Proof.Machine

-- Fields ----------------------------------------------------------------------------------------------------------------------

/-- The RWS bits of a register that is a plain word. -/
def Reg.rwsMask (off : Nat) : Word :=
  if off = Reg.scratch 0 ∨ off = Reg.scratch 1 then allW
  else if off = Reg.stepCtrl then 3
  else if off = Reg.pmbCfg then 0x3F
  else if off = Reg.pmbAddr then 0x7F7F7F7F
  else if off = Reg.crossTicks then 0xFFFFFF
  else if off = Reg.icCtrl then 0x80000000
  else if off = Reg.injCtrl then 0x80000000
  else if off = Reg.chRetry then 0xF
  else if off = Reg.dmaArbCfg ∨ off = Reg.mcArbCfg ∨ off = Reg.schedCfg then 0xFF
  else if Reg.within off (Reg.poolCfg 0) 8 then 0x3FFFF
  else if off = Reg.mcCtrl then 0x203
  else if off = Reg.arbPrio then 0xFFFFFF
  else if off = Reg.roundTicks then 0x3FFFFF
  else if off = Reg.slotData 0 then 0xFF0001FF
  else if off = Reg.slotData 1 ∨ off = Reg.slotData 2 then 0x3FFFFF
  else 0

/-- The RWS bits of every register of the device-global configuration (R37, R39). -/
def Reg.globalBits (off : Nat) : Word :=
  if off = Reg.devCtrl then 0x80000001
  else if off = Reg.pllCtrl 0 ∨ off = Reg.pllCtrl 1 then 3
  else if off = Reg.rootCtrl then 0x80000000
  else if off = Reg.slotSel then 0x7F
  else if off = Reg.slotCtrl then 0xC0000000
  else if off = Reg.roundBaseLo ∨ off = Reg.roundBaseHi then allW
  else if off = Reg.syncSrc then 0x3FF03
  else Reg.rwsMask off

/-- The RW bits of the registers that a processor of either pair may write and that are no agent's own (R4): hold-off periods and
event timers. -/
def Reg.rwMask (off : Nat) : Word :=
  if Reg.within off (Reg.grpHoldoff 0) 64 then 0xFFFF
  else if Reg.within off (Reg.timerCtrl 0) 64 then 0xDFFFFFFF
  else if Reg.within off (Reg.timerCmp 0) 64 then allW
  else 0

/-- The W1C bits of a register that is a plain word. -/
def Reg.w1cMask (off : Nat) : Word :=
  if off = Reg.pwrStatus then 0x02000000
  else if Reg.within off (Reg.pmbStatus 0) 4 then 0x40000000
  else if off = Reg.fuseStatus then 0x10000000
  else if off = Reg.semEvent then 0xC0000000
  else if off = Reg.syncStatus then 0x10000000
  else if off = Reg.fcStatus then 0x30000000
  else if off = Reg.dmaArbCfg ∨ off = Reg.mcArbCfg ∨ off = Reg.schedCfg ∨ off = Reg.rplStatus then 0x80000000
  else if Reg.within off (Reg.diagStat 0) 1 || off = Reg.diagStat 1 || off = Reg.diagStat 2 || off = Reg.diagStat 3 then
    0xC0000000
  else 0

/-- A register whose writes are dropped and logged while ENGINE_EN is 1 (R266, R287). -/
def Reg.engineLocked (off : Nat) : Bool := off == Reg.mcCtrl || Reg.within off (Reg.poolCfg 0) 8

/-- A write of a register that is a plain word: each 1 clears its W1C bit unless the device set it in this cycle (R5), the RWS bits are judged (R37, R440), and
everything else keeps its value (R4, R7). -/
def State.plainWrite (s : State) (a : Agent) (off : Nat) (v : Word) : State :=
  let c := Reg.w1cMask off &&& ~~~(s.freshBits off)
  let m := Reg.rwsMask off
  let s1 := if c &&& v = 0 then s else s.setReg off (s.reg off &&& ~~~(v &&& c))
  if m = 0 then s1 else s1.rwsWrite a off m v

/-- A write of a register with something of its own to do once it is accepted: the round grid (R112), the address map
(R266), a lower STARVE_LIMIT, which frames that wait may reach by it (R118). -/
def State.plainEffect (s0 s : State) (off : Nat) : State :=
  if off = Reg.roundTicks then (if s.reg off = s0.reg off then s else s.newGrid)
  else if off = Reg.schedCfg then
    if s.span.frames.any fun f => f.stage == .waiting && decide (f.starve < s0.schedLimit) && decide (s.schedLimit ≤ f.starve)
    then (s.raiseB Reg.schedCfg 31).raise 961 else s
  else if off = Reg.mcCtrl then (if s.amap = s0.amap then s else { s with mem := s.mem.undefineAll })
  else s

/-- A write of FC.INJ_CTRL (Tables 03-6, 17-10): without the fault-injection right it is dropped and logged; a VF's is
judged by R47. A control processor has no port: its write is judged as any RWS write (DESIGN CHOICE, log 94). -/
def State.injCtrlWrite (s : State) (a : Agent) (v : Word) : State :=
  let denied := match a with
    | .fn f => isPf f.val && !s.right (portOf f.val) 2
    | .cp _ => false
  if denied then s.protoEventA a Reg.injCtrl else s.plainWrite a Reg.injCtrl v

-- Pairs -----------------------------------------------------------------------------------------------------------------------

/-- A _LO half is staged for the writer (R8). -/
def State.stageLo (s : State) (a : Agent) (lo : Nat) (v : Word) : State :=
  let x := s.agent a.code
  s.setAgent a.code { x with stage := x.stage.put lo v }

/-- The _LO half that a write of _HI takes with it: the staged one, or the current one; nothing stays staged (R8). -/
def State.takeLo (s : State) (a : Agent) (lo : Nat) : Word × State :=
  let x := s.agent a.code
  (x.stage.get lo (s.regValue a lo), s.setAgent a.code { x with stage := x.stage.del lo })

/-- A write of APWIN_BASE_HI (R8, R46, Table 03-4). -/
def State.apwinWrite (s : State) (a : Agent) (v : Word) : State :=
  let (lo, s1) := s.takeLo a Reg.apwinLo
  s1.setAgent a.code { s1.agent a.code with apwinLo := lo &&& 0xFFFF0000, apwinHi := v &&& 0xF }

/-- A write of ROUND_BASE_HI (R38, R112): both halves take effect if the port holds SEM[0]; otherwise both are
dropped, and one event is logged where the pair would have changed. -/
def State.roundBaseWrite (s : State) (a : Agent) (v : Word) : State :=
  let (lo, s1) := s.takeLo a Reg.roundBaseLo
  let same := lo == s.reg Reg.roundBaseLo && v == s.reg Reg.roundBaseHi
  if s.holds0 a && !a.isVf then
    if same then s1 else ((s1.setReg Reg.roundBaseLo lo).setReg Reg.roundBaseHi v).newGrid
  else if same then s1 else s1.protoEventA a Reg.roundBaseHi

-- Block by block --------------------------------------------------------------------------------------------------------------

/-- Writes of DEV, CLKPWR and FUSE. -/
def State.ctrlWrite (s : State) (a : Agent) (off : Nat) (v : Word) : State :=
  let x := s.agent a.code
  if off = Reg.devCtrl then s.devCtrlWrite a v
  else if off = Reg.apwinLo then s.stageLo a off v
  else if off = Reg.apwinHi then s.apwinWrite a v
  else if off = Reg.sessSel then s.sessSel a v
  else if off = Reg.sessHalf then s.setAgent a.code { x with sessHalf := bit v 0 }
  else if off = Reg.pllCtrl 0 then s.pllCtrlWrite 0 a v
  else if off = Reg.pllCtrl 1 then s.pllCtrlWrite 1 a v
  else if off = Reg.rootCtrl then s.rootCtrlWrite a v
  else if off = Reg.hashSel then s.setAgent a.code { x with hashSel := v.extractLsb' 0 2 }
  else s.plainWrite a off v

/-- Writes of SEM and MBX. -/
def State.hostWrite (s : State) (a : Agent) (off : Nat) (v : Word) : State :=
  if Reg.within off (Reg.semLock 0) 64 then s.lockWrite (Reg.ix off (Reg.semLock 0)) a v
  else if Reg.within off (Reg.chCtrl 0) 64 then s.chCtrlWrite (Reg.ix off (Reg.chCtrl 0)) a v
  else if Reg.within off (Reg.chStatus 0) 64 then s.chStatusWrite (Reg.ix off (Reg.chStatus 0)) a v
  else if Reg.within off (Reg.outWord 0) 64 then
    match s.push (Reg.ix off (Reg.outWord 0)) a.code v with
    | some s1 => s1
    | none => s.protoEventA a off
  else s.plainWrite a off v

/-- Writes of IC and TMR. -/
def State.eventWrite (s : State) (a : Agent) (off : Nat) (v : Word) : State :=
  if off = Reg.srcPendSet then s.srcPendSetWrite a v
  else if off = Reg.srcPendClr then s.srcPendClrWrite a v
  else if Reg.within off (Reg.cpCtrl 0) 4 then s.cpMaskWrite (Fin.ofNat 4 (Reg.ix off (Reg.cpCtrl 0))) a v
  else if Reg.within off (Reg.icComplete 0) 4 then s.completeWrite (Fin.ofNat 4 (Reg.ix off (Reg.icComplete 0))) a v
  else if Reg.within off (Reg.wakeCtrl 0) 2 then s.wakeCtrlWrite (Fin.ofNat 2 (Reg.ix off (Reg.wakeCtrl 0))) a v
  else if off = Reg.istSel then s.istSel a v
  else if off = Reg.istCommit then s.istCommitOp a v none
  else if off = Reg.istStatus then s.clearCommit a.code Reg.istStatus v
  else if Reg.within off (Reg.istData 0) 5 then
    let w := Reg.ix off (Reg.istData 0)
    s.writeCopy a.code Reg.istSel w 5 (wd istMasks w) v
  else if Reg.within off (Reg.grpHoldoff 0) 64 then s.holdoffWrite (Reg.ix off (Reg.grpHoldoff 0)) a v
  else if off = Reg.syncSrc then s.syncSrcWrite a v
  else if Reg.within off (Reg.timerCtrl 0) 64 then s.timerCtrlWrite (Reg.ix off (Reg.timerCtrl 0)) a v
  else if Reg.within off (Reg.timerCmp 0) 64 then s.timerCmpWrite (Reg.ix off (Reg.timerCmp 0)) a v
  else s.plainWrite a off v

/-- Writes of FC, QT and DMA. -/
def State.queueWrite (s : State) (a : Agent) (off : Nat) (v : Word) : State :=
  if off = Reg.histSel then s.histSel a v
  else if off = Reg.injCtrl then s.injCtrlWrite a v
  else if off = Reg.qtSel then s.qtSel a v
  else if off = Reg.qtCommit then s.qtCommitOp a v none
  else if off = Reg.qtStatus then s.clearCommit a.code Reg.qtStatus v
  else if Reg.within off (Reg.qtData 0) 8 then
    let w := Reg.ix off (Reg.qtData 0)
    s.writeCopy a.code Reg.qtSel w 8 (wd queueMasks w) v
  else if off = Reg.chSel then s.chSel a v
  else if off = Reg.chCommit then s.chCommitOp a v none
  else if off = Reg.dmaChStatus then s.clearCommit a.code Reg.dmaChStatus v
  else if off = Reg.chCmd then s.chCmdWrite a v
  else if Reg.within off (Reg.chData 0) 4 then
    let w := Reg.ix off (Reg.chData 0)
    s.writeCopy a.code Reg.chSel w 4 (wd chanMasks w) v
  else s.plainWrite a off v

/-- A write of SLOT_SEL (Table 05-6): RWS, and the accepted write shows the slot. -/
def State.slotSelWrite (s : State) (a : Agent) (v : Word) : State :=
  if s.holds0 a then s.slotSelect v
  else if v &&& 0x7F == s.reg Reg.slotSel &&& 0x7F then s else s.protoEventA a Reg.slotSel

/-- Writes of BPM, PACE, MC, SPAN, CONC and SEC. -/
def State.unitWrite (s : State) (a : Agent) (off : Nat) (v : Word) : State :=
  if off = Reg.btSel then s.btSel a v
  else if off = Reg.flowSel then s.flowSel a v
  else if Reg.engineLocked off && s.regB Reg.devCtrl 0 then s.protoEventA a off
  else if off = Reg.rplSel then s.rplSel a v
  else if off = Reg.slotSel then s.slotSelWrite a v
  else if off = Reg.slotCtrl then s.slotCtrlWrite a v
  else if off = Reg.roundBaseLo then s.stageLo a off v
  else if off = Reg.roundBaseHi then s.roundBaseWrite a v
  else if off = Reg.statSel then s.setWindow a.code Reg.statSel (s.recordSel a v true)
  else if off = Reg.snapSel then s.setWindow a.code Reg.snapSel (s.recordSel a v false)
  else if off = Reg.keySlotSel then s.keySlotSel a v
  else State.plainEffect s (s.plainWrite a off v) off

/-- A write of a register in the agent's window. -/
def State.regWrite (s : State) (a : Agent) (off : Nat) (v : Word) : State :=
  let b := off / 65536
  if b ≤ 2 then s.ctrlWrite a off v
  else if b ≤ 4 then s.hostWrite a off v
  else if b ≤ 6 then s.eventWrite a off v
  else if b ≤ 0xA then s.queueWrite a off v
  else s.unitWrite a off v

-- The gate --------------------------------------------------------------------------------------------------------------------

/-- Blocks whose writes take effect before READY: SEM, MBX, IC, TMR and QT (R412). -/
def earlyBlock (off : Nat) : Bool := [3, 4, 5, 6, 8].contains (off / 65536)

/-- The write reaches the register: it is in the agent's window (R417, R47), a port's write before READY goes to an early
block (R412), and a VF's write goes to something of its own (R422). -/
def State.admits (s : State) (a : Agent) (off : Nat) : Bool :=
  s.inView a off && (s.ready || a.isCp || earlyBlock off) && !(a.isVf && Reg.deviceWide off)

/-- One 4-byte write at any offset: what does not reach a register is dropped and logged. -/
def State.writeAt (s : State) (a : Agent) (off : Nat) (v : Word) : State :=
  if s.admits a off then s.regWrite a off v else s.protoEventA a off

/-- A 4-byte write by an agent that can make one. -/
def State.access (s : State) (a : Agent) (off : Nat) (v : Word) : State :=
  if s.live a then s.writeAt a off v else s

/-- REGISTER_WRITE (R418, R440): 4 bytes, or 8 bytes as two writes, lower offset first; any other write is dropped and
logged. -/
def execRegisterWrite (a : Agent) (offset size : Nat) (v : BitVec 64) (s : State) : Res :=
  if !s.live a then .next s
  else if size = 4 && offset % 4 = 0 then .next (s.writeAt a offset (v.extractLsb' 0 32))
  else if size = 8 && offset % 8 = 0 then
    .next ((s.writeAt a offset (v.extractLsb' 0 32)).access a (offset + 4) (v.extractLsb' 32 32))
  else .next (s.protoEventA a offset)

/-- PAIR_HI_WRITE (R8, R38): a write of a _HI register makes the pair take effect. -/
def execPairHiWrite (a : Agent) (offset : Nat) (v : Word) (s : State) : Res :=
  match Reg.loOf offset with
  | some _ => .next (s.access a offset v)
  | none => .next s

-- Commands that are writes of one register ------------------------------------------------------------------------------------

/-- QT_SEL (R86). -/
def execQtSel (a : Agent) (v : Word) (s : State) : Res := .next (s.access a Reg.qtSel v)
/-- IST_SEL (R313). -/
def execIstSel (a : Agent) (v : Word) (s : State) : Res := .next (s.access a Reg.istSel v)
/-- CH_SEL (R301). -/
def execChSel (a : Agent) (v : Word) (s : State) : Res := .next (s.access a Reg.chSel v)
/-- CLEAR (R301, Table 13-7). -/
def execClear (a : Agent) (v : Word) (s : State) : Res := .next (s.access a Reg.chCmd v)
/-- STOP (R309). -/
def execStop (a : Agent) (v : Word) (s : State) : Res := .next (s.access a Reg.chCmd v)
/-- SNAP_SEL (R34). -/
def execSnapSel (a : Agent) (v : Word) (s : State) : Res := .next (s.access a Reg.snapSel v)
/-- STAT_SEL (Table 07-9). -/
def execStatSel (a : Agent) (v : Word) (s : State) : Res := .next (s.access a Reg.statSel v)
/-- FLOW_SEL (R262). -/
def execFlowSel (a : Agent) (v : Word) (s : State) : Res := .next (s.access a Reg.flowSel v)
/-- BT_SEL (R297). -/
def execBtSel (a : Agent) (v : Word) (s : State) : Res := .next (s.access a Reg.btSel v)
/-- KEY_SLOT_SEL (R362). -/
def execKeySlotSel (a : Agent) (v : Word) (s : State) : Res := .next (s.access a Reg.keySlotSel v)
/-- HIST_SEL (R380). -/
def execHistSel (a : Agent) (v : Word) (s : State) : Res := .next (s.access a Reg.histSel v)
/-- SESS_SEL (R419). -/
def execSessSel (a : Agent) (v : Word) (s : State) : Res := .next (s.access a Reg.sessSel v)
/-- SLOT_WRITE (R114). -/
def execSlotWrite (a : Agent) (v : Word) (s : State) : Res := .next (s.access a Reg.slotCtrl v)
/-- SWAP (R114). -/
def execSwap (a : Agent) (v : Word) (s : State) : Res := .next (s.access a Reg.slotCtrl v)
/-- RESET (R415). -/
def execReset (a : Agent) (v : Word) (s : State) : Res := .next (s.access a Reg.devCtrl v)
/-- ENGINE_EN_SET (R413). -/
def execEngineEnSet (a : Agent) (v : Word) (s : State) : Res := .next (s.access a Reg.devCtrl v)
/-- ENGINE_EN_CLEAR (R414). -/
def execEngineEnClear (a : Agent) (v : Word) (s : State) : Res := .next (s.access a Reg.devCtrl v)
/-- SWITCH (R396). -/
def execSwitch (a : Agent) (v : Word) (s : State) : Res := .next (s.access a Reg.rootCtrl v)
/-- REF_SEL (R396). -/
def execRefSel (p : Fin 2) (a : Agent) (v : Word) (s : State) : Res := .next (s.access a (Reg.pllCtrl p.val) v)
/-- TIMER_ARM (R330): a write of TIMER_CMP, or of TIMER_CTRL. -/
def execTimerArm (n : Fin 64) (a : Agent) (cmp : Bool) (v : Word) (s : State) : Res :=
  .next (s.access a (if cmp then Reg.timerCmp n.val else Reg.timerCtrl n.val) v)
/-- MIN_STEP (R399). -/
def execMinStep (a : Agent) (v : Word) (s : State) : Res := .next (s.access a Reg.stepCtrl v)

/-- A commit by an agent whose write reaches the register. -/
def State.commitAt (s : State) (a : Agent) (off : Nat) (commit : State → State) : State :=
  if !s.live a then s else if s.admits a off then commit s else s.protoEventA a off

/-- QT_COMMIT (R87–R89). -/
def execQtCommit (a : Agent) (v : Word) (rival : Option Fid) (s : State) : Res :=
  .next (s.commitAt a Reg.qtCommit fun st => st.qtCommitOp a v rival)

/-- IST_COMMIT (R313). -/
def execIstCommit (a : Agent) (v : Word) (rival : Option Fid) (s : State) : Res :=
  .next (s.commitAt a Reg.istCommit fun st => st.istCommitOp a v rival)

/-- A withdrawal that reaches the IC in the cycle of a claim comes before it (R316). -/
def State.withdrawFirst (s : State) : Withdrawal → State
  | .pendClr a v => if s.live a then s.srcPendClrWrite a v else s
  | .istCommit a v => s.commitAt a Reg.istCommit fun st => st.istCommitOp a v none
  | .flr f => s.flr f

/-- CLAIM (R316), with the withdrawals of the same cycle; the register lies outside every VF view, so a VF reads 0 (R47). -/
def execClaim (k : Fin 4) (c : ClaimRead) (s : State) : Res :=
  let s0 := c.withdrawn.foldl State.withdrawFirst s
  if !s0.live c.agent then .next s0
  else if c.agent.isVf then .next (s0.emit (.readWord (Reg.icClaim k.val) 0))
  else
    let (w, s1) := s0.claimRead k c.agent
    .next (s1.emit (.readWord (Reg.icClaim k.val) w))

/-- CH_COMMIT (R301); a VF that no view shows the channels to commits none. -/
def execChCommit (a : Agent) (v : Word) (rival : Option Fid) (s : State) : Res :=
  let seen := rival.filter fun f => s.admits (.fn f) Reg.chCommit
  .next (s.commitAt a Reg.chCommit fun st => st.chCommitOp a v seen)

-- The aperture window ----------------------------------------------------------------------------------------------------------

/-- Base of a function's aperture window (Table 03-4). -/
def State.apwinBase (s : State) (f : Fid) : Nat :=
  let x := s.agent (Agent.fn f).code
  pair64 x.apwinHi x.apwinLo

/-- The request of `n` bytes from device address `a` on is served (R45): not in Ground Floor mode (R387), below the end of
the pool regions, and, for a VF, inside buffers it owns. -/
def State.apertureOk (s : State) (f : Fid) (a n : Nat) : Bool :=
  !s.inGf && decide (a + n ≤ memEnd) && decide (a + n ≤ s.poolsEnd) && (isPf f.val || s.rangeOwned f.val a n)

/-- A refused request: Unsupported Request, and a host-protocol event (R45) whose DETAIL is the window offset. -/
def State.apertureRefuse (s : State) (f : Fid) (off : Nat) : State :=
  (s.protoEvent f.val off).emit (.unsupportedRequest f.val)

/-- Bytes of device memory as an aperture read returns them: what a poisoned line carries is open (R279). -/
def State.apertureBytes (s : State) (a n : Nat) : List Byte :=
  (List.range n).map fun i => if s.mem.isPoisoned (a + i) then Config.poisonByte s.free (a + i) else s.mem.read (a + i)

/-- The request lies in the window of 4 GiB (Table 03-3) of a function that can make one. -/
def State.apertureAccess (s : State) (f : Fid) (off n : Nat) : Bool :=
  s.liveFor f.val .aperture && n != 0 && decide (off + n ≤ 0x100000000)

/-- APERTURE_READ (R45, R46); its stacks leave self-refresh for it (R272). -/
def execApertureRead (f : Fid) (offset len : Nat) (s : State) : Res :=
  let a := s.apwinBase f + offset
  if !s.apertureAccess f offset len then .next s
  else if s.apertureOk f a len then
    let s0 := s.wakeFor a len
    let s1 := if s.mem.poisonIn a len then { s0 with free := s0.free + 1 } else s0
    .next (s1.emit (.readBytes (s.apertureBytes a len)))
  else .next (s.apertureRefuse f offset)

/-- APERTURE_WRITE (R45, R46); before READY it is dropped and logged (R412). -/
def execApertureWrite (f : Fid) (offset : Nat) (data : List Byte) (s : State) : Res :=
  let a := s.apwinBase f + offset
  if !s.apertureAccess f offset data.length then .next s
  else if !s.ready then .next (s.protoEvent f.val offset)
  else if s.apertureOk f a data.length then .next ((s.wakeFor a data.length).store a data)
  else .next (s.apertureRefuse f offset)

end Sys2Proof.Machine
end

