-- ==== Sys2Proof/Machine/Micro.lean ====
section
/-! DEFINITION. The control processors' microwords (R333, R336–R347): every micro-operation of Table 15-3, the journal
and its keystones, the watchdog, WAIT, and the Loggia with its limits. A microword runs where the control store holds it at the
context's address (R344). -/

namespace Sys2Proof.Machine

-- Registers of a context --------------------------------------------------------------------------------------------------------

/-- G register. -/
def Context.gReg (x : Context) (i : Nat) : Word := x.g.get i 0
/-- The context with a G register set. -/
def Context.setG (x : Context) (i : Nat) (v : Word) : Context := { x with g := x.g.put i v }
/-- A register. -/
def Context.aReg (x : Context) (i : Nat) : Word := x.a.get i 0
/-- The next microword (R336). -/
def Context.nextPc (x : Context) : Context := { x with pc := (x.pc + 1) % 65536 }
/-- Z and N of a result; C is not read by any microword (log 50). -/
def Context.flags (x : Context) (r : Word) (c : Bool) : Context := { x with z := r == 0, n := bit r 31, cf := c }

end Sys2Proof.Machine

namespace Sys2Proof

/-- DST of a microword as a number. -/
def Mw.d (m : Mw) : Nat := m.dst.toNat
/-- SRC of a microword as a number. -/
def Mw.s (m : Mw) : Nat := m.src.toNat
/-- IMM of a microword as a number. -/
def Mw.i (m : Mw) : Nat := m.imm.toNat

/-- IMM sign-extended from bit 17. -/
def Mw.simm (m : Mw) : Word := m.imm.signExtend 32

/-- IMM zero-extended. -/
def Mw.zimm (m : Mw) : Word := m.imm.setWidth 32

/-- The 32 bits of a microword (Table 15-2). -/
def Mw.word (m : Mw) (mop : Nat) : Word := Machine.at_ 26 mop ||| Machine.at_ 22 m.d ||| Machine.at_ 18 m.s ||| Machine.at_ 0 m.i

/-- The operand fields of a word (Table 15-2). -/
def mwOf (w : Word) : Mw := { dst := w.extractLsb' 22 4, src := w.extractLsb' 18 4, imm := w.extractLsb' 0 18 }

end Sys2Proof

namespace Sys2Proof.Machine

/-- What executing one microword comes to: the state, an illegal microword (R337), or a breach of the Loggia's limits
(R347). -/
inductive MwRes where
  | ok (s : State)
  | illegal
  | breach

/-- The context after a microword that only touches the context. -/
def State.stepCtx (s : State) (c : Ctx) (x : Context) : MwRes := .ok (s.setCtx c x.nextPc)

-- Arithmetic --------------------------------------------------------------------------------------------------------------------

/-- NOP to CMPI: the micro-operations that stay inside the context. -/
def State.mwAlu (s : State) (c : Ctx) (mop : Nat) (m : Mw) : MwRes :=
  let x := s.ctx c
  let d := x.gReg m.d
  let r := x.gReg m.s
  match mop with
  | 0x00 => s.stepCtx c x
  | 0x01 => s.stepCtx c (x.setG m.d m.zimm)
  | 0x02 => if 16384 ≤ m.i then .illegal else s.stepCtx c (x.setG m.d (setFld d 18 14 m.i))
  | 0x03 => s.stepCtx c (x.setG m.d r)
  | 0x04 => s.stepCtx c ((x.setG m.d (d + r)).flags (d + r) (decide (2 ^ 32 ≤ d.toNat + r.toNat)))
  | 0x05 => s.stepCtx c ((x.setG m.d (d - r)).flags (d - r) (decide (d.toNat < r.toNat)))
  | 0x06 => s.stepCtx c (x.setG m.d (d &&& r))
  | 0x07 => s.stepCtx c (x.setG m.d (d ||| r))
  | 0x08 => s.stepCtx c (x.setG m.d (d ^^^ r))
  | 0x09 => s.stepCtx c ((x.setG m.d (d + m.simm)).flags (d + m.simm) (decide (2 ^ 32 ≤ d.toNat + m.simm.toNat)))
  | 0x0A => if 32 ≤ m.i then .illegal else s.stepCtx c (x.setG m.d (d <<< m.i))
  | 0x0B => if 32 ≤ m.i then .illegal else s.stepCtx c (x.setG m.d (d >>> m.i))
  | 0x0C => if 32 ≤ m.i then .illegal else s.stepCtx c (x.setG m.d (d.sshiftRight m.i))
  | 0x0D => s.stepCtx c (x.flags (d - r) (decide (d.toNat < r.toNat)))
  | 0x0E => s.stepCtx c (x.flags (d - m.simm) (decide (d.toNat < m.simm.toNat)))
  | _ => .illegal

-- Control flow ------------------------------------------------------------------------------------------------------------------

/-- The context runs Loggia code: a packet of the Loggia, or vendor firmware that has called into it (R344, R347). -/
def Context.inLoggia (x : Context) : Bool := x.loggia || decide (0xE000 ≤ x.pc)

/-- A jump of Loggia code may go to 0xE010–0xFFFF only (R347). -/
def Context.mayJump (x : Context) (t : Nat) : Bool := !x.inLoggia || decide (0xE010 ≤ t)

/-- Vendor firmware reaches the Loggia only through its entry table (R344): a jump past the table is illegal (DESIGN CHOICE,
log 84). -/
def Context.pastTable (x : Context) (t : Nat) : Bool := !x.inLoggia && decide (0xE010 ≤ t)

/-- Continue at IMM where the condition holds; the target is judged whether or not the jump is taken. -/
def State.mwJump (s : State) (c : Ctx) (m : Mw) (taken : Bool) : MwRes :=
  let x := s.ctx c
  if 65536 ≤ m.i || x.pastTable m.i then .illegal
  else if !x.mayJump m.i then .breach
  else if taken then .ok (s.setCtx c { x with pc := m.i })
  else s.stepCtx c x

/-- What a vendor service entry leaves (R347): the entry at 0x0104 device time, its low half in G0 and its high half in G3 (Table
15-8); any other an open result in G0. -/
def State.serve (s : State) (c : Ctx) (a : Nat) : MwRes :=
  let x := s.ctx c
  if a = 0x0104 then s.stepCtx c ((x.setG 0 (loW s.now)).setG 3 (hiW s.now))
  else { s with free := s.free + 1 }.stepCtx c (x.setG 0 (Config.serviceResult (a - 0x0100) s.free))

/-- CALL: push and continue at IMM; Loggia code may call a vendor service entry, which returns (R347). -/
def State.mwCall (s : State) (c : Ctx) (m : Mw) : MwRes :=
  let x := s.ctx c
  if 65536 ≤ m.i || 8 ≤ x.stack.length || x.pastTable m.i then .illegal
  else if x.inLoggia && decide (0x0100 ≤ m.i) && decide (m.i ≤ 0x011F) then s.serve c m.i
  else if !x.mayJump m.i then .breach
  else .ok (s.setCtx c { x with pc := m.i, stack := (x.pc + 1) % 65536 :: x.stack })

/-- RET: pop; an empty stack is illegal. -/
def State.mwRet (s : State) (c : Ctx) : MwRes :=
  let x := s.ctx c
  match x.stack with
  | [] => .illegal
  | t :: r => .ok (s.setCtx c { x with pc := t, stack := r })

-- Memory and registers ------------------------------------------------------------------------------------------------------------

/-- The processor of the pair that makes an access: CP[k] for its own CLAIM, COMPLETE and CP_CTRL, and the pair's first
processor for every other (R332). -/
def mwAgent (p : Fin 2) (off : Nat) : Agent :=
  let k := if Reg.within off (Reg.icClaim 0) 8 || Reg.within off (Reg.cpCtrl 0) 4 then Reg.ix off 0x050000 % 4 else 2 * p.val
  if k / 2 = p.val then .cp (Fin.ofNat 4 k) else .cp (Fin.ofNat 4 (2 * p.val))

/-- The latest journalled data of an address (R338). -/
def Context.journalled (x : Context) (isBuf : Bool) (a : Nat) : Option Word :=
  (x.journal.reverse.find? fun e => e.isBuf == isBuf && e.addr == a).map (·.data)

/-- A visible write is journalled; the 17th is illegal (R338). -/
def State.mwJournal (s : State) (c : Ctx) (e : JEntry) : MwRes :=
  let x := s.ctx c
  if 16 ≤ x.journal.length then .illegal else s.stepCtx c { x with journal := x.journal ++ [e] }

/-- Offset of RD and WR: A register + 4 × IMM, with IMM[17:16] = 0 and the register number below 4; none where the access is
illegal: outside the register window or misaligned (R337). -/
def Context.regOff (x : Context) (areg imm : Nat) : Option Nat :=
  let off := (x.aReg areg).toNat + 4 * imm
  if 4 ≤ areg || 65536 ≤ imm || 0x1FFFFF < off || off % 4 ≠ 0 then none else some off

/-- Loggia code may not read the FUSE and SEC blocks (R347). -/
def loggiaReads (off : Nat) : Bool := off / 65536 != 2 && off / 65536 != 0x1C

/-- Loggia code may write the registers of MBX (Table 19-8), SEM.LOCK[1]–[63] and IC.SRC_PEND_SET (R347). -/
def loggiaWrites (off : Nat) : Bool :=
  (off / 65536 == 4 && Reg.assigned off) || Reg.within off (Reg.semLock 1) 63 || off == Reg.srcPendSet

/-- What a packet reads of a register: the RWS bits as its start found them (R39), every other bit as it is. -/
def Context.sees (x : Context) (off : Nat) (w : Word) : Word :=
  match x.globals.find off with
  | some g => (w &&& ~~~Reg.globalBits off) ||| (g &&& Reg.globalBits off)
  | none => w

/-- RD (R337, R338): the journalled data of the address, or a read of the register with its effects, where the device-global
configuration shows as the packet's start found it (R39). -/
def State.mwRd (s : State) (c : Ctx) (m : Mw) : MwRes :=
  let x := s.ctx c
  match x.regOff m.s m.i with
  | none => .illegal
  | some off =>
    if x.inLoggia && !loggiaReads off then .breach
    else match x.journalled false off with
      | some w => s.stepCtx c (x.setG m.d w)
      | none =>
        let (w, s1) := s.readAt (mwAgent c.pair off) off
        s1.stepCtx c (x.setG m.d (x.sees off w))

/-- WR (R337, R338). -/
def State.mwWr (s : State) (c : Ctx) (m : Mw) : MwRes :=
  let x := s.ctx c
  match x.regOff m.d m.i with
  | none => .illegal
  | some off =>
    if x.inLoggia && !loggiaWrites off then .breach
    else s.mwJournal c { isBuf := false, addr := off, data := x.gReg m.s }

/-- RDP: a word of the packet; an event routine has none, and what it reads is open (log 50). -/
def State.mwRdp (s : State) (c : Ctx) (m : Mw) : MwRes :=
  let x := s.ctx c
  if 16 ≤ m.i then .illegal
  else match s.running? c with
    | some p => s.stepCtx c (x.setG m.d (wd p.words m.i))
    | none =>
      let (w, s1) := s.takeFree
      s1.stepCtx c (x.setG m.d w)

/-- VAL: a value word of the completion. -/
def State.mwVal (s : State) (c : Ctx) (m : Mw) : MwRes :=
  let x := s.ctx c
  if 4 ≤ m.i then .illegal else s.stepCtx c { x with vals := x.vals.put m.i (x.gReg m.s) }

/-- BWIN (R342): the window is checked under R79 against the packet's function; a failed check ends the packet, its journal
discarded, with IMM[17:14] as V1. -/
def State.mwBwin (s : State) (c : Ctx) (m : Mw) : MwRes :=
  let x := s.ctx c
  let h := x.gReg m.s
  let off := x.gReg m.d
  let n := m.i % 16384
  match s.running? c with
  | none => s.stepCtx c x
  | some p =>
    match s.checkRef p.fid h off n (m.i / 16384) with
    | some r => .ok (s.refuse p r)
    | none =>
      (s.pin (handleKey h)).stepCtx c { x with window := some (s.refAddr h off, n), pins := x.pins ++ [handleKey h] }

/-- Device address of a word of the window; none where the access is illegal (R337). -/
def Context.winAddr (x : Context) (off : Nat) : Option Nat :=
  match x.window with
  | some (a, n) => if off + 4 ≤ n && off % 4 == 0 then some (a + off) else none
  | none => none

/-- BRD: the journalled data of the address, or the word in memory; what a poisoned line gives is open (R279). -/
def State.mwBrd (s : State) (c : Ctx) (m : Mw) : MwRes :=
  let x := s.ctx c
  match x.winAddr (x.gReg m.s).toNat with
  | none => .illegal
  | some a =>
    match x.journalled true a with
    | some w => s.stepCtx c (x.setG m.d w)
    | none =>
      if s.mem.poisonIn a 4 then
        let (w, s1) := s.takeFree
        s1.stepCtx c (x.setG m.d w)
      else s.stepCtx c (x.setG m.d (s.loadW a))

/-- BWR. -/
def State.mwBwr (s : State) (c : Ctx) (m : Mw) : MwRes :=
  let x := s.ctx c
  match x.winAddr (x.gReg m.d).toNat with
  | none => .illegal
  | some a => s.mwJournal c { isBuf := true, addr := a, data := x.gReg m.s }

-- Keystones ---------------------------------------------------------------------------------------------------------------------

/-- What a register write of a keystone leaves of data that the other pair's keystone of this cycle wrote to the same register for a
packet fetched later: its RW fields remain (R339). An RWS field is never both's: one pair at most holds SEM[0] (R37). -/
def State.keyData (s : State) (c : Ctx) (x : Context) (off : Nat) (w : Word) : Word :=
  match s.conc.keyed.find (1 - c.pair.val), x.packet with
  | some k, some id =>
    if k.cycle = s.cyc ∧ id < k.packet then
      match k.writes.reverse.find? fun e => e.1 == off with
      | some e => (w &&& ~~~Reg.rwMask off) ||| (e.2 &&& Reg.rwMask off)
      | none => w
    else w
  | _, _ => w

/-- The keystone's register writes are remembered for its cycle (R339). -/
def State.recordKey (s : State) (c : Ctx) (x : Context) : State :=
  match x.packet, (x.journal.filter fun e => !e.isBuf).map fun e => (e.addr, e.data) with
  | some id, e :: es =>
    { s with conc := { s.conc with keyed := s.conc.keyed.put c.pair.val { cycle := s.cyc, packet := id, writes := e :: es } } }
  | _, _ => s

/-- The journal of a context is committed (R339): every buffer write in order, then every register write together; the
keystone's address is recorded, and the watchdog starts anew. -/
def State.commitJournal (s : State) (c : Ctx) : State :=
  let x := s.ctx c
  let s1 := (x.journal.filter (·.isBuf)).foldl (fun st e => st.store e.addr (wordBytes e.data)) s
  let s2 := (x.journal.filter fun e => !e.isBuf).foldl
    (fun st e => st.writeAt (mwAgent c.pair e.addr) e.addr (s.keyData c x e.addr e.data)) s1
  (s2.recordKey c x).setCtx c { s2.ctx c with journal := [], lastKey := x.pc, watchdog := 0 }

/-- KEY (R339). -/
def State.mwKey (s : State) (c : Ctx) : MwRes :=
  let s1 := s.commitJournal c
  s1.stepCtx c (s1.ctx c)

/-- WAIT (R341): the context is suspended until a condition of IMM[3:0] holds. -/
def State.mwWait (s : State) (c : Ctx) (m : Mw) : MwRes :=
  s.stepCtx c { s.ctx c with waiting := some (m.imm.extractLsb' 0 4) }

/-- Statuses of Table 04-6 (R83). -/
def statusKnown (st : Nat) : Bool := decide (st ≤ 3) || within 0x10 0x18 st || within 0x20 0x22 st || st == 0x30

/-- Statuses that carry a REASON (R84). -/
def refusing (st : Nat) : Bool := within 0x10 0x18 st || st == 0x30

/-- V1 of a refusal (R77): the parameter word that VAL named, 0xFF with BAD_PARAM alone; 0 with every other status. -/
def refusalWord (st : Nat) (v : Word) : Word :=
  if refusing st && (decide (v.toNat ≤ 11) || (v == 0xFF && st == 0x15)) then v else 0

/-- Statuses that Loggia code may name (R347). -/
def loggiaStatus (st : Nat) : Bool := st == 0 || (decide (0x10 ≤ st) && decide (st ≤ 0x18))

/-- DONE (R340, R345): a Loggia packet with the SEM0 attribute takes effect only while its port holds SEM[0]; the journal is
committed and the completion produced with the words that VAL set, within R77 and R84: REASON is 0 where the status is no
refusal, and above 0x0F only a refusal has a word, V1. A STATUS outside Table 04-6 stands in no routine (R83), and such a word is
illegal here (DESIGN CHOICE, log 66). An event routine ends. -/
def State.mwDone (s : State) (c : Ctx) (m : Mw) : MwRes :=
  let x := s.ctx c
  let st := m.i % 256
  if x.inLoggia && !loggiaStatus st then .breach
  else if x.packet.isSome && !statusKnown st then .illegal
  else match s.running? c with
    | none => .ok ((s.commitJournal c).freeCtx c)
    | some p =>
      if x.loggia && (s.loggiaAttr p.opc).getLsbD 1 && !s.portHolds0 (portOf p.fid) then .ok (s.refuse p ⟨0x17, 0x0708, 0⟩)
      else
        let s1 := s.commitJournal c
        let s2 := if refusing st then s1 else s1.crossPacket p st
        .ok ((s2.produceAt p p.cq st (if refusing st then fld (x.gReg m.s) 0 16 else 0) s1.now
          (if st < 0x10 then (List.range 4).map fun i => x.vals.get i 0 else [0, refusalWord st (x.vals.get 1 0), 0, 0])
          (if p.opc = 0x20 && !refusing st then some s1.cyc else none)).endPacket p.id)

/-- The state a meaning answers. -/
def Res.stateOr (s : State) : Res → State
  | .next t => t
  | _ => s

/-- HAND (R337, R347): vendor firmware only; after the keystone a frame packet goes to the span scheduler as its own command
says. A packet without a frame has nothing to hand over (log 50). -/
def State.mwHand (s : State) (c : Ctx) : MwRes :=
  let x := s.ctx c
  if x.inLoggia then .breach
  else match s.running? c with
    | none => .illegal
    | some p =>
      let s1 := s.commitJournal c
      if p.opc = 0x20 then .ok (Res.stateOr s1 (execEncFrame c s1))
      else if p.opc = 0x30 then .ok (Res.stateOr s1 (execDecData c [⟨.picture, true, (p.p 2).toNat⟩] s1))
      else if p.opc = 0x32 then .ok (Res.stateOr s1 (execDecBurst c (List.replicate (p.p 3).toNat [⟨.picture, true, 0⟩]) s1))
      else .illegal

-- One microword -----------------------------------------------------------------------------------------------------------------

/-- The effect of a microword (Table 15-3). -/
def State.mwEffect (s : State) (c : Ctx) (mop : Nat) (m : Mw) : MwRes :=
  let x := s.ctx c
  match mop with
  | 0x10 => s.mwJump c m true
  | 0x11 => s.mwJump c m x.z
  | 0x12 => s.mwJump c m (!x.z)
  | 0x13 => s.mwJump c m x.n
  | 0x14 => s.mwJump c m (!x.n)
  | 0x15 => s.mwCall c m
  | 0x16 => s.mwRet c
  | 0x18 => if 4 ≤ m.d then .illegal else s.stepCtx c { x with a := x.a.put m.d (x.gReg m.s) }
  | 0x19 => s.mwRd c m
  | 0x1A => s.mwWr c m
  | 0x1B => s.mwRdp c m
  | 0x1C => s.mwVal c m
  | 0x1D => s.mwBwin c m
  | 0x1E => s.mwBrd c m
  | 0x1F => s.mwBwr c m
  | 0x20 => s.stepCtx c (x.setG m.d (x.scratch.get (fld (x.gReg m.s) 0 10) 0))
  | 0x21 => s.stepCtx c { x with scratch := x.scratch.put (fld (x.gReg m.d) 0 10) (x.gReg m.s) }
  | 0x28 => s.mwKey c
  | 0x29 => s.mwWait c m
  | 0x2A => s.mwDone c m
  | 0x2B => s.mwHand c
  | _ => s.mwAlu c mop m

/-- The longest stall of a micro-operation (Table 15-3); none where only the access bounds it. -/
def stallMax (mop : Nat) : Option Nat :=
  match mop with
  | 0x19 => some 48
  | 0x1D => some 24
  | 0x1E => none
  | 0x28 => none
  | 0x2A => none
  | 0x2B => none
  | _ => some 0

/-- A stall within its bound. -/
def stallOf (mop stall : Nat) : Nat := match stallMax mop with | some k => min k stall | none => stall

/-- The context executes: it runs a packet whose firmware runs, or it is context 7 with an event routine; its pair serves and
has turned to it, and it is not suspended (R333, R341). -/
def State.executes (s : State) (c : Ctx) : Bool :=
  let x := s.ctx c
  s.pairServes c.pair.val && x.waiting.isNone && s.hasTurn c &&
    match s.running? c with
    | some p => s.firmwareRuns p.opc
    | none => x.packet.isNone && c.slot == 7 && s.firmwareRuns 0x00

/-- Execution at the context's address is legal: not in the reserved region (R344), and Loggia code in its own. -/
def Context.mayFetch (x : Context) : Bool := !(decide (0xC000 ≤ x.pc) && decide (x.pc < 0xE000)) && (!x.loggia || decide (0xE000 ≤ x.pc))

/-- The context with its routine: an event routine that begins does so at an address of the vendor's, which is open (log 85). -/
def State.routine (s : State) (c : Ctx) : Context :=
  let x := s.ctx c
  if c.slot = 7 ∧ x = Context.reset then { x with pc := Config.eventEntry.toNat % 0xC000, ranAt := s.cyc } else x

/-- The microword stands in the control store at the context's address, where execution is legal (R336, R344). -/
def State.fetches (s : State) (c : Ctx) (w : Word) : Bool := let x := s.routine c; !x.mayFetch || s.storeWord x.pc == w

/-- The context executes one microword with its stall (R336, R337, R343): its microcycles count; past 4,096 the watchdog
expires; otherwise its effect, or the reaction to an illegal microword or a breach. At WAIT, KEY and its end the pair may
turn to another context (R333). -/
def State.micro (s : State) (c : Ctx) (mop : Nat) (m : Mw) (stall : Nat) : State :=
  let x := s.routine c
  let count := x.watchdog + 1 + stallOf mop stall
  let s0 := s.raisePeak Reg.keyGapPeak 0 13 (min count 8191)
  let s1 := (s0.turnTo c).setCtx c { x with watchdog := count, ranAt := s.cyc }
  let t :=
    if 4096 < count then (s1.codeFault c 1 none).st
    else if !x.mayFetch then (s1.codeFault c 2 none).st
    else match s1.mwEffect c mop m with
      | .ok t => t
      | .illegal => (s1.codeFault c 2 none).st
      | .breach => s1.sandboxBreach c
  if mop = 0x28 || !t.ctxReady c then t.yieldTurn c else t

/-- A microword's command: nothing where the context does not execute it (log 11). -/
def State.microAt (s : State) (c : Ctx) (mop : Nat) (m : Mw) (stall : Nat) : State :=
  if s.executes c && s.fetches c (m.word mop) then s.micro c mop m stall else s

/-- NOP. -/
def execMicroNop (c : Ctx) (m : Mw) (s : State) : Res := .next (s.microAt c 0x00 m 0)
/-- MOVI. -/
def execMovi (c : Ctx) (m : Mw) (s : State) : Res := .next (s.microAt c 0x01 m 0)
/-- MOVHI. -/
def execMovhi (c : Ctx) (m : Mw) (s : State) : Res := .next (s.microAt c 0x02 m 0)
/-- MOV. -/
def execMov (c : Ctx) (m : Mw) (s : State) : Res := .next (s.microAt c 0x03 m 0)
/-- ADD. -/
def execAdd (c : Ctx) (m : Mw) (s : State) : Res := .next (s.microAt c 0x04 m 0)
/-- SUB. -/
def execSub (c : Ctx) (m : Mw) (s : State) : Res := .next (s.microAt c 0x05 m 0)
/-- AND. -/
def execAnd (c : Ctx) (m : Mw) (s : State) : Res := .next (s.microAt c 0x06 m 0)
/-- OR. -/
def execOr (c : Ctx) (m : Mw) (s : State) : Res := .next (s.microAt c 0x07 m 0)
/-- XOR. -/
def execXor (c : Ctx) (m : Mw) (s : State) : Res := .next (s.microAt c 0x08 m 0)
/-- ADDI. -/
def execAddi (c : Ctx) (m : Mw) (s : State) : Res := .next (s.microAt c 0x09 m 0)
/-- SHL. -/
def execShl (c : Ctx) (m : Mw) (s : State) : Res := .next (s.microAt c 0x0A m 0)
/-- SHR. -/
def execShr (c : Ctx) (m : Mw) (s : State) : Res := .next (s.microAt c 0x0B m 0)
/-- SAR. -/
def execSar (c : Ctx) (m : Mw) (s : State) : Res := .next (s.microAt c 0x0C m 0)
/-- CMP. -/
def execCmp (c : Ctx) (m : Mw) (s : State) : Res := .next (s.microAt c 0x0D m 0)
/-- CMPI. -/
def execCmpi (c : Ctx) (m : Mw) (s : State) : Res := .next (s.microAt c 0x0E m 0)
/-- JMP. -/
def execJmp (c : Ctx) (m : Mw) (s : State) : Res := .next (s.microAt c 0x10 m 0)
/-- JZ. -/
def execJz (c : Ctx) (m : Mw) (s : State) : Res := .next (s.microAt c 0x11 m 0)
/-- JNZ. -/
def execJnz (c : Ctx) (m : Mw) (s : State) : Res := .next (s.microAt c 0x12 m 0)
/-- JLT. -/
def execJlt (c : Ctx) (m : Mw) (s : State) : Res := .next (s.microAt c 0x13 m 0)
/-- JGE. -/
def execJge (c : Ctx) (m : Mw) (s : State) : Res := .next (s.microAt c 0x14 m 0)
/-- CALL. -/
def execCall (c : Ctx) (m : Mw) (s : State) : Res := .next (s.microAt c 0x15 m 0)
/-- RET. -/
def execRet (c : Ctx) (m : Mw) (s : State) : Res := .next (s.microAt c 0x16 m 0)
/-- LDA. -/
def execLda (c : Ctx) (m : Mw) (s : State) : Res := .next (s.microAt c 0x18 m 0)
/-- RD. -/
def execRd (c : Ctx) (m : Mw) (stall : Nat) (s : State) : Res := .next (s.microAt c 0x19 m stall)
/-- WR. -/
def execWr (c : Ctx) (m : Mw) (s : State) : Res := .next (s.microAt c 0x1A m 0)
/-- RDP. -/
def execRdp (c : Ctx) (m : Mw) (s : State) : Res := .next (s.microAt c 0x1B m 0)
/-- VAL. -/
def execVal (c : Ctx) (m : Mw) (s : State) : Res := .next (s.microAt c 0x1C m 0)
/-- BWIN. -/
def execBwin (c : Ctx) (m : Mw) (stall : Nat) (s : State) : Res := .next (s.microAt c 0x1D m stall)
/-- BRD. -/
def execBrd (c : Ctx) (m : Mw) (stall : Nat) (s : State) : Res := .next (s.microAt c 0x1E m stall)
/-- BWR. -/
def execBwr (c : Ctx) (m : Mw) (s : State) : Res := .next (s.microAt c 0x1F m 0)
/-- LRD. -/
def execLrd (c : Ctx) (m : Mw) (s : State) : Res := .next (s.microAt c 0x20 m 0)
/-- LWR. -/
def execLwr (c : Ctx) (m : Mw) (s : State) : Res := .next (s.microAt c 0x21 m 0)
/-- KEY. -/
def execKey (c : Ctx) (m : Mw) (stall : Nat) (s : State) : Res := .next (s.microAt c 0x28 m stall)
/-- WAIT. -/
def execWait (c : Ctx) (m : Mw) (s : State) : Res := .next (s.microAt c 0x29 m 0)
/-- DONE. -/
def execDone (c : Ctx) (m : Mw) (stall : Nat) (s : State) : Res := .next (s.microAt c 0x2A m stall)
/-- HAND. -/
def execHand (c : Ctx) (m : Mw) (stall : Nat) (s : State) : Res := .next (s.microAt c 0x2B m stall)

-- WAIT ends, and the Loggia ------------------------------------------------------------------------------------------------------

/-- A wait condition holds for a pair (R337, R322): an event in the request set of either processor, or, with WAKE_ANY, a pending
enabled source that targets one; the expiry of a timer that processors use; a mailbox condition. Condition 1, a result for
the packet, is what the command reports. -/
def State.waitHolds (s : State) (p : Fin 2) (cond : Fin 4) : Bool :=
  match cond with
  | 0 => s.ic.reqs.any (fun r => r.2 / 2 == p.val) ||
      (s.regB Reg.icCtrl 31 && s.ic.ist.any fun e => e.2.enabled && e.2.pend &&
        e.2.targets.any fun t => t.valid && t.isCp && t.vector / 2 == p.val)
  | 1 => true
  | 2 => (List.range 8).any fun i => s.regB (Reg.timerCtrl (56 + i)) 29
  | 3 => s.mbxPend (pairCode p) 0 != 0 || s.mbxPend (pairCode p) 1 != 0

/-- WAIT_RESUME (R341): a condition that the context waits for holds, and the context runs again. -/
def execWaitResume (c : Ctx) (cond : Fin 4) (s : State) : Res :=
  let x := s.ctx c
  match x.waiting with
  | some mask =>
    if mask.getLsbD cond.val && s.waitHolds c.pair cond && s.pairServes c.pair.val && !s.clk.inDeep then
      .next (s.setCtx c { x with waiting := none, ranAt := s.cyc })
    else .next s
  | none => .next s

/-- The stall of a microword whose access takes a time that is open: a read, a window's check, the buffer writes of a commit. -/
def State.openStall (s : State) (c : Ctx) (mop : Nat) : Option Nat :=
  let commit := if (s.ctx c).journal.any (·.isBuf) then some (Config.freeWord s.free).toNat else none
  match mop with
  | 0x19 | 0x1D | 0x1E => some (Config.freeWord s.free).toNat
  | 0x28 | 0x2A | 0x2B => commit
  | _ => none

/-- The microword at the context's address in the Loggia region, with its stall (R343). -/
def State.loggiaStep (s : State) (c : Ctx) : State :=
  let w := s.storeWord (s.ctx c).pc
  let mop := fld w 26 6
  match s.openStall c mop with
  | some k => { s with free := s.free + 1 }.micro c mop (mwOf w) k
  | none => s.micro c mop (mwOf w) 0

/-- Loggia code runs to the next point at which its pair may switch: WAIT, KEY or its end (R333); the watchdog bounds it. -/
def State.loggiaRun (fuel : Nat) (c : Ctx) (s : State) : State :=
  match fuel with
  | 0 => s
  | n + 1 =>
    if !s.executes c || !(s.ctx c).loggia then s
    else
      let key := fld (s.storeWord (s.ctx c).pc) 26 6 == 0x28
      let s1 := s.loggiaStep c
      if key then s1 else State.loggiaRun n c s1

/-- LOGGIA_CUSTOM (R345, R347): the customer routine of a packet 0xE0–0xEF runs. -/
def execLoggiaCustom (c : Ctx) (s : State) : Res :=
  if (s.ctx c).loggia then .next (s.loggiaRun 4097 c) else .next s

end Sys2Proof.Machine
end

