-- ==== Sys2Proof/Machine/Dispatch.lean ====
section
/-! DEFINITION. One arm per command: each calls the meaning of that command. -/

namespace Sys2Proof.Machine

def exec (i : Instr) (s : State) : Host.Outcome State Fault Refusal :=
  match i with
  | .nop c => Sys2Proof.Machine.execNop c s
  | .devQuery c => Sys2Proof.Machine.execDevQuery c s
  | .sessConfig c => Sys2Proof.Machine.execSessConfig c s
  | .sessEnable c => Sys2Proof.Machine.execSessEnable c s
  | .consistencyCheck sess => Sys2Proof.Machine.execConsistencyCheck sess s
  | .sessDisable c => Sys2Proof.Machine.execSessDisable c s
  | .sessSnapshot c => Sys2Proof.Machine.execSessSnapshot c s
  | .encFrame c => Sys2Proof.Machine.execEncFrame c s
  | .encFlush c => Sys2Proof.Machine.execEncFlush c s
  | .stairSet c => Sys2Proof.Machine.execStairSet c s
  | .hintAttach c => Sys2Proof.Machine.execHintAttach c s
  | .decData c items => Sys2Proof.Machine.execDecData c items s
  | .decFlush c => Sys2Proof.Machine.execDecFlush c s
  | .decBurst c items => Sys2Proof.Machine.execDecBurst c items s
  | .keyImport c blob => Sys2Proof.Machine.execKeyImport c blob s
  | .attest c nonce outOk => Sys2Proof.Machine.execAttest c nonce outOk s
  | .keyErase c => Sys2Proof.Machine.execKeyErase c s
  | .bufAlloc c rival => Sys2Proof.Machine.execBufAlloc c rival s
  | .bufFree c => Sys2Proof.Machine.execBufFree c s
  | .bufShare c => Sys2Proof.Machine.execBufShare c s
  | .dmaKick c => Sys2Proof.Machine.execDmaKick c s
  | .flowSet c => Sys2Proof.Machine.execFlowSet c s
  | .faultInject c => Sys2Proof.Machine.execFaultInject c s
  | .faultAck c => Sys2Proof.Machine.execFaultAck c s
  | .powerCap c => Sys2Proof.Machine.execPowerCap c s
  | .codeStatus c => Sys2Proof.Machine.execCodeStatus c s
  | .fwRecover c image => Sys2Proof.Machine.execFwRecover c image s
  | .firmwareWriteEnd readBackOk => Sys2Proof.Machine.execFirmwareWriteEnd readBackOk s
  | .loggiaCustom c => Sys2Proof.Machine.execLoggiaCustom c s
  | .fwRecoverMailbox image => Sys2Proof.Machine.execFwRecoverMailbox image s
  | .doorbellSubmission f offset size v => Sys2Proof.Machine.execDoorbellSubmission f offset size v s
  | .doorbellCompletion f offset size v => Sys2Proof.Machine.execDoorbellCompletion f offset size v s
  | .fetchBatch q entries => Sys2Proof.Machine.execFetchBatch q entries s
  | .packetDispatch q => Sys2Proof.Machine.execPacketDispatch q s
  | .completionWrite q => Sys2Proof.Machine.execCompletionWrite q s
  | .microNop c m => Sys2Proof.Machine.execMicroNop c m s
  | .movi c m => Sys2Proof.Machine.execMovi c m s
  | .movhi c m => Sys2Proof.Machine.execMovhi c m s
  | .mov c m => Sys2Proof.Machine.execMov c m s
  | .add c m => Sys2Proof.Machine.execAdd c m s
  | .sub c m => Sys2Proof.Machine.execSub c m s
  | .and c m => Sys2Proof.Machine.execAnd c m s
  | .or c m => Sys2Proof.Machine.execOr c m s
  | .xor c m => Sys2Proof.Machine.execXor c m s
  | .addi c m => Sys2Proof.Machine.execAddi c m s
  | .shl c m => Sys2Proof.Machine.execShl c m s
  | .shr c m => Sys2Proof.Machine.execShr c m s
  | .sar c m => Sys2Proof.Machine.execSar c m s
  | .cmp c m => Sys2Proof.Machine.execCmp c m s
  | .cmpi c m => Sys2Proof.Machine.execCmpi c m s
  | .jmp c m => Sys2Proof.Machine.execJmp c m s
  | .jz c m => Sys2Proof.Machine.execJz c m s
  | .jnz c m => Sys2Proof.Machine.execJnz c m s
  | .jlt c m => Sys2Proof.Machine.execJlt c m s
  | .jge c m => Sys2Proof.Machine.execJge c m s
  | .call c m => Sys2Proof.Machine.execCall c m s
  | .ret c m => Sys2Proof.Machine.execRet c m s
  | .lda c m => Sys2Proof.Machine.execLda c m s
  | .rd c m stall => Sys2Proof.Machine.execRd c m stall s
  | .wr c m => Sys2Proof.Machine.execWr c m s
  | .rdp c m => Sys2Proof.Machine.execRdp c m s
  | .val c m => Sys2Proof.Machine.execVal c m s
  | .bwin c m stall => Sys2Proof.Machine.execBwin c m stall s
  | .brd c m stall => Sys2Proof.Machine.execBrd c m stall s
  | .bwr c m => Sys2Proof.Machine.execBwr c m s
  | .lrd c m => Sys2Proof.Machine.execLrd c m s
  | .lwr c m => Sys2Proof.Machine.execLwr c m s
  | .key c m stall => Sys2Proof.Machine.execKey c m stall s
  | .wait c m => Sys2Proof.Machine.execWait c m s
  | .waitResume c cond => Sys2Proof.Machine.execWaitResume c cond s
  | .done c m stall => Sys2Proof.Machine.execDone c m stall s
  | .hand c m stall => Sys2Proof.Machine.execHand c m stall s
  | .watchdogExpiry c => Sys2Proof.Machine.execWatchdogExpiry c s
  | .pairMismatch p => Sys2Proof.Machine.execPairMismatch p s
  | .pairSelfTestEnd p pass => Sys2Proof.Machine.execPairSelfTestEnd p pass s
  | .semAcquire n a rival => Sys2Proof.Machine.execSemAcquire n a rival s
  | .semRelease n a w => Sys2Proof.Machine.execSemRelease n a w s
  | .attach n a => Sys2Proof.Machine.execAttach n a s
  | .detach n a => Sys2Proof.Machine.execDetach n a s
  | .waitEmpty n a => Sys2Proof.Machine.execWaitEmpty n a s
  | .mbxPush n a v => Sys2Proof.Machine.execMbxPush n a v s
  | .mbxPop n a => Sys2Proof.Machine.execMbxPop n a s
  | .crossedWait n => Sys2Proof.Machine.execCrossedWait n s
  | .qtSel a v => Sys2Proof.Machine.execQtSel a v s
  | .qtCommit a v rival => Sys2Proof.Machine.execQtCommit a v rival s
  | .istSel a v => Sys2Proof.Machine.execIstSel a v s
  | .istCommit a v rival => Sys2Proof.Machine.execIstCommit a v rival s
  | .chSel a v => Sys2Proof.Machine.execChSel a v s
  | .chCommit a v rival => Sys2Proof.Machine.execChCommit a v rival s
  | .clear a v => Sys2Proof.Machine.execClear a v s
  | .stop a v => Sys2Proof.Machine.execStop a v s
  | .snapSel a v => Sys2Proof.Machine.execSnapSel a v s
  | .statSel a v => Sys2Proof.Machine.execStatSel a v s
  | .flowSel a v => Sys2Proof.Machine.execFlowSel a v s
  | .btSel a v => Sys2Proof.Machine.execBtSel a v s
  | .keySlotSel a v => Sys2Proof.Machine.execKeySlotSel a v s
  | .histSel a v => Sys2Proof.Machine.execHistSel a v s
  | .sessSel a v => Sys2Proof.Machine.execSessSel a v s
  | .slotWrite a v => Sys2Proof.Machine.execSlotWrite a v s
  | .swap a v => Sys2Proof.Machine.execSwap a v s
  | .srcPendSet a v => Sys2Proof.Machine.execSrcPendSet a v s
  | .srcPendClr a v => Sys2Proof.Machine.execSrcPendClr a v s
  | .claim k c => Sys2Proof.Machine.execClaim k c s
  | .complete k a v => Sys2Proof.Machine.execComplete k a v s
  | .cpMaskWrite k a v => Sys2Proof.Machine.execCpMaskWrite k a v s
  | .grpHoldoffWrite g a v => Sys2Proof.Machine.execGrpHoldoffWrite g a v s
  | .force n a v => Sys2Proof.Machine.execForce n a v s
  | .reset a v => Sys2Proof.Machine.execReset a v s
  | .engineEnSet a v => Sys2Proof.Machine.execEngineEnSet a v s
  | .deviceLevelCheck => Sys2Proof.Machine.execDeviceLevelCheck s
  | .engineEnClear a v => Sys2Proof.Machine.execEngineEnClear a v s
  | .switch a v => Sys2Proof.Machine.execSwitch a v s
  | .refSel p a v => Sys2Proof.Machine.execRefSel p a v s
  | .timerArm n a cmp v => Sys2Proof.Machine.execTimerArm n a cmp v s
  | .minStep a v => Sys2Proof.Machine.execMinStep a v s
  | .pairLoRead a offset size => Sys2Proof.Machine.execPairLoRead a offset size s
  | .pairHiWrite a offset v => Sys2Proof.Machine.execPairHiWrite a offset v s
  | .rcRead a offset size => Sys2Proof.Machine.execRcRead a offset size s
  | .registerWrite a offset size v => Sys2Proof.Machine.execRegisterWrite a offset size v s
  | .apertureRead f offset len => Sys2Proof.Machine.execApertureRead f offset len s
  | .apertureWrite f offset data => Sys2Proof.Machine.execApertureWrite f offset data s
  | .d3hotEntry f => Sys2Proof.Machine.execD3hotEntry f s
  | .d0Return f => Sys2Proof.Machine.execD0Return f s
  | .porNAssert held => Sys2Proof.Machine.execPorNAssert held s
  | .porNDeassert refs smbAddr testMode => Sys2Proof.Machine.execPorNDeassert refs smbAddr testMode s
  | .perstAssert n held => Sys2Proof.Machine.execPerstAssert n held s
  | .perstDeassert n => Sys2Proof.Machine.execPerstDeassert n s
  | .crsEnd n => Sys2Proof.Machine.execCrsEnd n s
  | .hotReset n => Sys2Proof.Machine.execHotReset n s
  | .linkDown n => Sys2Proof.Machine.execLinkDown n s
  | .flr f => Sys2Proof.Machine.execFlr f s
  | .vfEnableClear n => Sys2Proof.Machine.execVfEnableClear n s
  | .ideKm n stream => Sys2Proof.Machine.execIdeKm n stream s
  | .ideCheckFailed n stream => Sys2Proof.Machine.execIdeCheckFailed n stream s
  | .jtagAccess j => Sys2Proof.Machine.execJtagAccess j s
  | .pldmType2Request => Sys2Proof.Machine.execPldmType2Request s
  | .pldmType5Request n image => Sys2Proof.Machine.execPldmType5Request n image s
  | .alertResponseRead => Sys2Proof.Machine.execAlertResponseRead s
  | .smbusStuckBus => Sys2Proof.Machine.execSmbusStuckBus s
  | .pmbusPoll r => Sys2Proof.Machine.execPmbusPoll r s
  | .pmbAlert r => Sys2Proof.Machine.execPmbAlert r s
  | .rootLock => Sys2Proof.Machine.execRootLock s
  | .fuseSense => Sys2Proof.Machine.execFuseSense s
  | .bankSelection => Sys2Proof.Machine.execBankSelection s
  | .hbmTraining => Sys2Proof.Machine.execHbmTraining s
  | .spanSelfTestStartup failEnc failDec secPass => Sys2Proof.Machine.execSpanSelfTestStartup failEnc failDec secPass s
  | .fuseBlow readBackOk => Sys2Proof.Machine.execFuseBlow readBackOk s
  | .referenceLoss missingRef => Sys2Proof.Machine.execReferenceLoss missingRef s
  | .pllRelock p => Sys2Proof.Machine.execPllRelock p s
  | .ptmDialogue masterNs => Sys2Proof.Machine.execPtmDialogue masterNs s
  | .eventTimerExpiry n => Sys2Proof.Machine.execEventTimerExpiry n s
  | .powerCapLoop mean => Sys2Proof.Machine.execPowerCapLoop mean s
  | .thermalSample tj => Sys2Proof.Machine.execThermalSample tj s
  | .cclkStepChange confirmed => Sys2Proof.Machine.execCclkStepChange confirmed s
  | .spanPowerGate u => Sys2Proof.Machine.execSpanPowerGate u s
  | .unitWake u => Sys2Proof.Machine.execUnitWake u s
  | .deepIdleEntry => Sys2Proof.Machine.execDeepIdleEntry s
  | .deepIdleExit cause => Sys2Proof.Machine.execDeepIdleExit cause s
  | .icWakeRestore => Sys2Proof.Machine.execIcWakeRestore s
  | .selfRefreshEntry n => Sys2Proof.Machine.execSelfRefreshEntry n s
  | .selfRefreshExit n => Sys2Proof.Machine.execSelfRefreshExit n s
  | .perBankRefresh pc bank => Sys2Proof.Machine.execPerBankRefresh pc bank s
  | .forcedRefresh pc bank => Sys2Proof.Machine.execForcedRefresh pc bank s
  | .memoryArbiterDecision g waiting found => Sys2Proof.Machine.execMemoryArbiterDecision g waiting found s
  | .combiningFlush n stripe => Sys2Proof.Machine.execCombiningFlush n stripe s
  | .diagnosisEnd g o => Sys2Proof.Machine.execDiagnosisEnd g o s
  | .channelArbiterDecision => Sys2Proof.Machine.execChannelArbiterDecision s
  | .descriptorLoad ch => Sys2Proof.Machine.execDescriptorLoad ch s
  | .segmentReturn ch data => Sys2Proof.Machine.execSegmentReturn ch data s
  | .busError ch fromMemory => Sys2Proof.Machine.execBusError ch fromMemory s
  | .transferComplete ch => Sys2Proof.Machine.execTransferComplete ch s
  | .bufferClear pool index => Sys2Proof.Machine.execBufferClear pool index s
  | .schedulerDecision k sizeLog group => Sys2Proof.Machine.execSchedulerDecision k sizeLog group s
  | .slotWindowOpen slot => Sys2Proof.Machine.execSlotWindowOpen slot s
  | .roundBoundary => Sys2Proof.Machine.execRoundBoundary s
  | .deadlineDrop frame => Sys2Proof.Machine.execDeadlineDrop frame s
  | .conditioningRow vb => Sys2Proof.Machine.execConditioningRow vb s
  | .mezzanineAnalysis frame intra inter => Sys2Proof.Machine.execMezzanineAnalysis frame intra inter s
  | .pierReached frame member a b parityError => Sys2Proof.Machine.execPierReached frame member a b parityError s
  | .decodeRowEnd frame row => Sys2Proof.Machine.execDecodeRowEnd frame row s
  | .crossing frame content pic => Sys2Proof.Machine.execCrossing frame content pic s
  | .writerWait flow => Sys2Proof.Machine.execWriterWait flow s
  | .headLandingFill flow poisoned => Sys2Proof.Machine.execHeadLandingFill flow poisoned s
  | .tokenRefill => Sys2Proof.Machine.execTokenRefill s
  | .packetGrant sched => Sys2Proof.Machine.execPacketGrant sched s
  | .consumerIndexRead flow index => Sys2Proof.Machine.execConsumerIndexRead flow index s
  | .interruptDelivery source => Sys2Proof.Machine.execInterruptDelivery source s
  | .holdoffWindowEnd g => Sys2Proof.Machine.execHoldoffWindowEnd g s
  | .spanCheckFailed k j corrected => Sys2Proof.Machine.execSpanCheckFailed k j corrected s
  | .spanHang k j => Sys2Proof.Machine.execSpanHang k j s
  | .spareTakeover k logical => Sys2Proof.Machine.execSpareTakeover k logical s
  | .spanSelfTestEnd k j pass => Sys2Proof.Machine.execSpanSelfTestEnd k j pass s
  | .detourReplay frame => Sys2Proof.Machine.execDetourReplay frame s
  | .vestibuleCheckFailed n => Sys2Proof.Machine.execVestibuleCheckFailed n s
  | .mezzanineCheckFailed n frame => Sys2Proof.Machine.execMezzanineCheckFailed n frame s
  | .stagingParityError ch => Sys2Proof.Machine.execStagingParityError ch s
  | .controlTableError table corrected => Sys2Proof.Machine.execControlTableError table corrected s
  | .securitySelfCheckFailed => Sys2Proof.Machine.execSecuritySelfCheckFailed s
  | .injectedFaultFire packet => Sys2Proof.Machine.execInjectedFaultFire packet s
  | .groundFloorService pass0 pass1 => Sys2Proof.Machine.execGroundFloorService pass0 pass1 s
  | .linkUp n speed width flit => Sys2Proof.Machine.execLinkUp n speed width flit s
  | .linkPmTransition n pm => Sys2Proof.Machine.execLinkPmTransition n pm s
  | .vfEnableSet n numVfs => Sys2Proof.Machine.execVfEnableSet n numVfs s
  | .ptmEnableWrite n en => Sys2Proof.Machine.execPtmEnableWrite n en s
  | .msiXMaskWrite f vector masked => Sys2Proof.Machine.execMsiXMaskWrite f vector masked s
  | .stackTemperatureChange n temp => Sys2Proof.Machine.execStackTemperatureChange n temp s
  | .vddCoreTrim steps => Sys2Proof.Machine.execVddCoreTrim steps s
  | .spdmMessage n authenticates => Sys2Proof.Machine.execSpdmMessage n authenticates s

end Sys2Proof.Machine
end

