-- ==== Sys2Proof/Machine/Tick.lean ====
section
/-! DEFINITION. The passing of time: one FCLK cycle, and a tick every twelve cycles with the corrections of
R328. -/

namespace Sys2Proof.Machine

/-- PEND is cleared at the end of cycle L + 4 of a delivery, unless the source was raised again (R315). -/
def IstEntry.settle (cyc : Nat) (e : IstEntry) : IstEntry :=
  match e.latched with
  | some l => if l + 4 < cyc then { e with pend := e.reRaised, reRaised := false, latched := none } else e
  | none => e

/-- Every delivery whose cycle L + 4 has ended is settled (R315). -/
def State.settleIc (s : State) : State :=
  { s with ic := { s.ic with ist := s.ic.ist.mapVal (IstEntry.settle s.cyc) } }

/-- Device time after one TCLK tick (R327, R328): plain, slewed by one tick in 1,024, or at half rate. -/
def TimeSt.tick (t : TimeSt) (slewing slow : Bool) : TimeSt :=
  if !t.runs then { t with raw := t.raw + 1 }
  else if slow then
    if t.phase = 0 then { t with raw := t.raw + 1, now := t.now + 1, phase := 1 }
    else { t with raw := t.raw + 1, phase := 0, err := t.err + 1 }
  else if slewing then
    if t.phase + 1 ≥ 1024 then
      if t.err > 0 then { t with raw := t.raw + 1, now := t.now + 2, phase := 0, err := t.err - 1 }
      else { t with raw := t.raw + 1, phase := 0, err := t.err + 1 }
    else { t with raw := t.raw + 1, now := t.now + 1, phase := t.phase + 1 }
  else { t with raw := t.raw + 1, now := t.now + 1 }

/-- The milliseconds at a step and in DEEP_IDLE count by ticks (Table 19-5). -/
def ClkSt.count (c : ClkSt) : ClkSt :=
  if !c.alive then c
  else { c with stepTicks := c.stepTicks.put c.cclk (c.stepTicks.get c.cclk 0 + 1),
                deepTicks := if c.inDeep then c.deepTicks + 1 else c.deepTicks }

/-- One TCLK tick: device time moves, and SLEWING and SLOW clear when the error has gone. -/
def State.tick (s : State) : State :=
  let t := s.time.tick (s.regB Reg.syncStatus 30) (s.regB Reg.syncStatus 29)
  let s1 := { s with time := t, clk := s.clk.count }
  if t.err = 0 then (s1.setRegB Reg.syncStatus 30 false).setRegB Reg.syncStatus 29 false else s1

/-- One FCLK cycle; the twelfth ends the tick (R9). The messages latched in it leave (R315). Deliveries and packets whose last cycle it was end with it (R256, R315). -/
def State.cycle (s : State) : State :=
  let s0 := s.sendLatched fun _ => true
  let s1 := if s0.time.cycle + 1 ≥ 12 then { s0.tick with time := { s0.tick.time with cycle := 0 } }
            else { s0 with time := { s0.time with cycle := s0.time.cycle + 1 } }
  s1.settleIc.deliverDue

end Sys2Proof.Machine
end

