-- ==== Sys2Proof/Machine/Step.lean ====
section
/-! DEFINITION. One step: the command at the front of the queue runs; on an empty queue one FCLK cycle
passes (log 2). -/

namespace Sys2Proof.Machine

/-- The state with the front command taken from the queue and the observations of the last command gone. -/
def State.popped (s : State) (rest : List Instr) : State := { s with pending := rest, out := [] }

/-- One step of the machine. -/
def step (s : State) : Host.Outcome State Fault Refusal :=
  match s.pending with
  | [] => .next (s.popped []).cycle
  | i :: rest => exec i (s.popped rest)

/-- The state with the command that a table word spells put at the front of its queue. No row of the table
has bits, so no word spells one (log 1). -/
def State.withFetchWord (s : State) (nbits w : Nat) : State :=
  match decodeTableWord nbits w with
  | some i => { s with pending := i :: s.pending }
  | none => s

end Sys2Proof.Machine
end

