-- ==== Sys2Proof/Safety.lean ====
section
/-! DEFINITION. What counts as a safe run: the invariant that claims speak of. -/

namespace Sys2Proof

/-- Fetch numbers tell packets apart: no two packets have one, the next is above them all, and so is where the last batch
began (R95). -/
def packetsNumbered (q : Machine.QSt) : Prop :=
  (q.packets.map (·.id)).Nodup ∧ (∀ p ∈ q.packets, p.id < q.nextId) ∧ ∀ c port a, q.lastFetch = some (c, port, a) → a ≤ q.nextId

/-- Device memory has its canonical form, every mailbox queue holds at most 8 words (R56), and packets are numbered. -/
def Inv (s : Machine.State) : Prop :=
  s.mem.wf ∧ (∀ e ∈ s.mbx, e.2.e0.queue.length ≤ 8 ∧ e.2.e1.queue.length ≤ 8) ∧ packetsNumbered s.qs

end Sys2Proof
end

