-- ==== Sys2Proof/Certificates/Slice0/Obligations.lean ====
section
/-! DEFINITION. The statements for the provers: what the commands do by the numbered rules of the spec. A frame is
written as an equation: the state after equals the state before with the named parts replaced. -/

section
open Sys2Proof Sys2Proof.Machine

/-- The command at the front of the queue runs on the state with the queue's rest. The list of observations starts
empty: it is the model's own (no register of the device), so what a command sends out is read there. -/
def Obligations.StepRunsFront : Prop :=
  ∀ (c : Instr) (rest : List Instr) (s : State), s.pending = c :: rest →
    step s = exec c { s with pending := rest, out := [] }

/-- The waiting commands are the environment's: no command of the table takes one away, adds one or reorders them. -/
def Obligations.ExecKeepsQueue : Prop :=
  ∀ (c : Instr) (s t : State), exec c s = .next t → t.pending = s.pending

/-- No delivery is latched in this cycle and no packet of the Tollgate is under way. -/
def Obligations.quiet (s : State) : Prop := s.ic.latches = [] ∧ ∀ e ∈ s.flows, e.2.sending = none

/-- Log 2 (the model's choice): with no command waiting, one FCLK cycle passes; twelve cycles are one tick of 10 ns. -/
def Obligations.IdleStepCountsTime : Prop :=
  ∀ (s : State), s.pending = [] →
    ∃ t, step s = .next t ∧ t.pending = [] ∧ t.ic.latches = [] ∧
      (s.time.cycle < 11 → t.time = { s.time with cycle := s.time.cycle + 1 }) ∧
      (s.time.cycle ≥ 11 → t.time.cycle = 0 ∧ t.time.raw = s.time.raw + 1 ∧ s.now ≤ t.now) ∧
      (s.time.cycle ≥ 11 → s.time.runs → !s.regB Reg.syncStatus 30 → !s.regB Reg.syncStatus 29 → t.now = s.now + 1) ∧
      (Obligations.quiet s →
        (s.time.cycle < 11 → t = { s with out := [], time := t.time, ic := t.ic }) ∧
        (∀ n l, (s.ist n).latched = some l → l + 4 < t.cyc →
          t.ist n = { s.ist n with pend := (s.ist n).reRaised, reRaised := false, latched := none }) ∧
        (∀ n, (s.ist n).latched = none → t.ist n = s.ist n) ∧
        t = { s with out := [], time := t.time, ic := { s.ic with ist := t.ic.ist }, clk := t.clk, regs := t.regs }) ∧
      (∀ l f v, s.ic.latches = [l] → l.msg = some (f, v) → (∀ e ∈ s.flows, e.2.sending = none) →
        s.ic.sentAt ≠ s.now ∨ (f, v) ∉ s.ic.sent → s.ideDrops (portOf f) .device = false →
        if (s.fn f).funcMask ∨ v ∉ (s.fn f).unmasked then t.out = [] ∧ v ∈ (t.fn f).pba else t.out = [.msix f v])

/-- R327: device time starts from 0 when POR_N deasserts, and it never decreases. -/
def Obligations.DeviceTimeNeverDecreases : Prop :=
  ∀ (s t : State), (∀ h, s.pending.head? ≠ some (.porNAssert h)) →
    (∀ r a m, s.pending.head? ≠ some (.porNDeassert r a m)) → step s = .next t → s.now ≤ t.now

/-- R50 and R54: what a read of SEM.LOCK[n] does, and that a VF neither acquires nor releases SEM[0]. -/
def Obligations.SemLockRead : Prop :=
  ∀ (n : Fin 64) (a : Agent) (s : State), s.live a →
    (¬(n = 0 ∧ a.isVf) → s.holder n.val = 0 →
      ∃ t, exec (.semAcquire n a none) s = .next t ∧ t.holder n.val = a.code ∧
        (∀ m, m ≠ n.val → t.holder m = s.holder m) ∧ t.out = s.out ++ [.readWord (Reg.semLock n.val) 0] ∧
        t = { s with sem := t.sem, out := t.out }) ∧
    (¬(n = 0 ∧ a.isVf) → s.holder n.val ≠ 0 →
      exec (.semAcquire n a none) s = .next (s.emit (.readWord (Reg.semLock n.val) (loW (s.holder n.val))))) ∧
    (n = 0 → a.isVf → exec (.semAcquire n a none) s = .next (s.emit (.readWord (Reg.semLock 0) 0xFF))) ∧
    (n = 0 → a.isVf → ∀ v, exec (.semRelease n a ⟨v, none⟩) s = .next (s.protoEventA a (Reg.semLock 0)))

/-- R52 and the first sentence of R53. `o.1` is the function on the port that TIE_NEXT names, `o.2` the other. -/
def Clause.semTies : Prop :=
  ∀ (n : Fin 64) (s : State), s.holder n.val = 0 →
    (∀ f g : Fid, s.live (.fn f) → s.live (.fn g) → portOf f.val ≠ portOf g.val →
      (n = 0 → isPf f.val ∧ isPf g.val) →
      let o := if s.semTie = portOf f.val then (f, g) else (g, f)
      let data (x : Fid) : Word := if x = o.1 then 0 else loW (o.1.val + 1)
      ∃ t, exec (.semAcquire n (.fn f) (some g)) s = .next t ∧ t.holder n.val = o.1.val + 1 ∧
        t.semTie = portOf o.2.val ∧ (∀ m, m ≠ n.val → t.holder m = s.holder m) ∧
        t.out = s.out ++ [.readWord (Reg.semLock n.val) (data f), .readWord (Reg.semLock n.val) (data g)] ∧
        (∀ off, off ≠ Reg.tieNext → t.reg off = s.reg off) ∧
        t = { s with sem := t.sem, out := t.out, regs := t.regs }) ∧
    (∀ (k : Fin 4) (f : Fid), s.live (.cp k) → s.live (.fn f) → (n = 0 → isPf f.val) →
      ∃ t, exec (.semAcquire n (.cp k) (some f)) s = .next t ∧ t.holder n.val = f.val + 1 ∧
        (∀ m, m ≠ n.val → t.holder m = s.holder m) ∧
        t.out = s.out ++ [.readWord (Reg.semLock n.val) (loW (f.val + 1)), .readWord (Reg.semLock n.val) 0] ∧
        t = { s with sem := t.sem, out := t.out })

/-- R51: release by the holder's own owner code, before a read of the same cycle; any other write is dropped and logged. -/
def Clause.semReleases : Prop :=
  ∀ (n : Fin 64) (a : Agent) (v : Word) (s : State), s.live a → ¬(n = 0 ∧ a.isVf) →
    (s.holder n.val = a.code → fld v 0 8 = a.code →
      (∃ t, exec (.semRelease n a ⟨v, none⟩) s = .next t ∧ t.holder n.val = 0 ∧
        (∀ m, m ≠ n.val → t.holder m = s.holder m) ∧ t = { s with sem := t.sem }) ∧
      (∀ b : Agent, s.live b → b ≠ a → ¬(n = 0 ∧ b.isVf) →
        ∃ t, exec (.semRelease n a ⟨v, some b⟩) s = .next t ∧ t.holder n.val = b.code ∧
          (∀ m, m ≠ n.val → t.holder m = s.holder m) ∧ t.out = s.out ++ [.readWord (Reg.semLock n.val) 0] ∧
          t = { s with sem := t.sem, out := t.out })) ∧
    (s.holder n.val ≠ a.code ∨ fld v 0 8 ≠ a.code →
      exec (.semRelease n a ⟨v, none⟩) s = .next (s.protoEventA a (Reg.semLock n.val)))

/-- R51 to R53. -/
def Obligations.SemTiesAndReleases : Prop := Clause.semTies ∧ Clause.semReleases

/-- The owner codes of R51: a function's FID + 1, or the code of a lockstep pair's first processor. -/
def Obligations.legalHolders (s : State) : Prop :=
  (∀ n, s.holder n ≤ 0x81 ∨ s.holder n = 0x83) ∧ (s.holder 0 = 0 ∨ 0x81 ≤ s.holder 0 ∨ isPf (s.holder 0 - 1))

/-- R51 and R54 over every command: codes 0x82 and 0x84 never appear, and no VF holds SEM[0]. -/
def Obligations.SemHolders : Prop :=
  ∀ (s t : State), Obligations.legalHolders s → step s = .next t → Obligations.legalHolders t

/-- R55 and R58 on one channel, for the endpoint's own commands. -/
def Obligations.MbxAttachDetach : Prop :=
  ∀ (n : Fin 64) (a : Agent) (s : State), s.live a →
    (∃ t, exec (.attach n a) s = .next t ∧ (∀ m, m ≠ n.val → t.box m = s.box m) ∧
      t = { s with mbx := t.mbx, fresh := t.fresh, freshAt := t.freshAt } ∧
      (((s.box n.val).holds? a.code).isSome ∨ ((s.box n.val).e0.owner ≠ 0 ∧ (s.box n.val).e1.owner ≠ 0) →
        (t.box n.val).e0 = (s.box n.val).e0 ∧ (t.box n.val).e1 = (s.box n.val).e1 ∧
        a.code ∈ (t.box n.val).attachFail) ∧
      ((s.box n.val).holds? a.code = none → (s.box n.val).e0.owner = 0 →
        (t.box n.val).e0 = { MbxEnd.reset with owner := a.code } ∧ (t.box n.val).e1 = (s.box n.val).e1) ∧
      ((s.box n.val).holds? a.code = none → (s.box n.val).e0.owner ≠ 0 → (s.box n.val).e1.owner = 0 →
        (t.box n.val).e1 = { MbxEnd.reset with owner := a.code } ∧ (t.box n.val).e0 = (s.box n.val).e0)) ∧
    ((s.box n.val).holds? a.code = none →
      exec (.detach n a) s = .next (s.protoEventA a (Reg.chCtrl n.val))) ∧
    (∀ e, (s.box n.val).holds? a.code = some e → n = 0 → e = true → exec (.detach n a) s = .next s) ∧
    (∀ e, (s.box n.val).holds? a.code = some e → ¬(n = 0 ∧ e = true) →
      let o := (s.box n.val).endOf (!e)
      ∃ t, exec (.detach n a) s = .next t ∧ (∀ m, m ≠ n.val → t.box m = s.box m) ∧
        (t.box n.val).endOf e = MbxEnd.reset ∧
        (t.box n.val).endOf (!e) =
          (if o.owner = 0 then { o with queue := [] }
           else { o with queue := [], aborted := true, abortCause := 2, discarded := o.queue.length, waitEmpty := false }) ∧
        t.ic = (if o.owner = 0 then s.ic else (s.raise (endSource n.val (!e))).ic) ∧
        t = { s with mbx := t.mbx, ic := t.ic, fresh := t.fresh, freshAt := t.freshAt })

/-- R56 and the pop's part of R57. -/
def Clause.mbxWords : Prop :=
  ∀ (n : Fin 64) (a : Agent) (v : Word) (s : State), s.live a →
    ((s.box n.val).holds? a.code = none →
      exec (.mbxPush n a v) s = .next (s.protoEventA a (Reg.outWord n.val)) ∧
      exec (.mbxPop n a) s = .next ((s.protoEventA a (Reg.inWord n.val)).emit (.readWord (Reg.inWord n.val) 0))) ∧
    (∀ e, (s.box n.val).holds? a.code = some e →
      let x := (s.box n.val).endOf e
      let o := (s.box n.val).endOf (!e)
      (x.queue.length ≥ 8 → ∃ t, exec (.mbxPush n a v) s = .next t ∧
        t.box n.val = (s.box n.val).setEnd e { x with overflow := true } ∧
        (∀ m, m ≠ n.val → t.box m = s.box m) ∧
        t = { s with mbx := t.mbx, fresh := t.fresh, freshAt := t.freshAt }) ∧
      (x.queue.length < 8 → ∃ t, exec (.mbxPush n a v) s = .next t ∧
        (t.box n.val).endOf e = { x with queue := x.queue ++ [v] } ∧ (t.box n.val).endOf (!e) = o ∧
        (∀ m, m ≠ n.val → t.box m = s.box m) ∧
        t.ic = (if x.queue = [] ∧ o.dataIe then (s.raise (endSource n.val (!e))).ic else s.ic) ∧
        t = { s with mbx := t.mbx, ic := t.ic }) ∧
      (o.queue = [] → ∃ t, exec (.mbxPop n a) s = .next t ∧
        t.out = s.out ++ [.readWord (Reg.inWord n.val) 0] ∧
        t.box n.val = (s.box n.val).setEnd e { x with underflow := true } ∧
        (∀ m, m ≠ n.val → t.box m = s.box m) ∧
        t = { s with mbx := t.mbx, out := t.out, fresh := t.fresh, freshAt := t.freshAt }) ∧
      (∀ w r, o.queue = w :: r → ∃ t, exec (.mbxPop n a) s = .next t ∧
        t.out = s.out ++ [.readWord (Reg.inWord n.val) w] ∧
        (t.box n.val).endOf (!e) = { o with queue := r, waitEmpty := o.waitEmpty && !r.isEmpty } ∧
        (t.box n.val).endOf e = x ∧ (∀ m, m ≠ n.val → t.box m = s.box m) ∧
        t.ic = (if r = [] ∧ o.waitEmpty then (s.raise (endSource n.val (!e))).ic else s.ic) ∧
        t = { s with mbx := t.mbx, ic := t.ic, out := t.out }))

/-- R57's last two sentences and R59's notice. -/
def Clause.mbxWaits : Prop :=
  ∀ (n : Fin 64) (s : State),
    (∀ a : Agent, s.live a → (s.box n.val).holds? a.code = none →
      exec (.waitEmpty n a) s = .next (s.protoEventA a (Reg.chCtrl n.val))) ∧
    (∀ (a : Agent) (e : Bool), s.live a → (s.box n.val).holds? a.code = some e →
      let x := (s.box n.val).endOf e
      ∃ t, exec (.waitEmpty n a) s = .next t ∧ (t.box n.val).endOf e = { x with waitEmpty := !x.queue.isEmpty } ∧
        (t.box n.val).endOf (!e) = (s.box n.val).endOf (!e) ∧ (∀ m, m ≠ n.val → t.box m = s.box m) ∧
        t.ic = (if x.queue = [] then (s.raise (endSource n.val e)).ic else s.ic) ∧
        t = { s with mbx := t.mbx, ic := t.ic }) ∧
    (∀ w, (s.box n.val).window = some w → (s.box n.val).armed → s.crossTicks ≠ 0 → w + s.crossTicks ≤ s.now →
      ∃ t, exec (.crossedWait n) s = .next t ∧
        (t.box n.val).e0 = { (s.box n.val).e0 with crossed := true } ∧
        (t.box n.val).e1 = { (s.box n.val).e1 with crossed := true } ∧
        (t.box n.val).window = none ∧ (t.box n.val).fired = true ∧ (∀ m, m ≠ n.val → t.box m = s.box m) ∧
        t.ic = ((s.raise (832 + n.val)).raise (896 + n.val)).ic ∧
        t = { s with mbx := t.mbx, ic := t.ic, fresh := t.fresh, freshAt := t.freshAt }) ∧
    ((s.box n.val).window = none ∨ s.crossTicks = 0 ∨ (∀ w, (s.box n.val).window = some w → s.now < w + s.crossTicks) →
      exec (.crossedWait n) s = .next s)

/-- R56, R57 and R59. -/
def Obligations.MbxWordsAndWaits : Prop := Clause.mbxWords ∧ Clause.mbxWaits

/-- What opening a window does to group `g` at a delivery (R319). -/
def Obligations.opensWindow (g : Nat) (s t : State) : Prop :=
  let h := s.regF (Reg.grpHoldoff g) 0 16
  (∀ m, m ≠ g → t.ic.wins.find m = s.ic.wins.find m) ∧
  t.ic.wins.find g =
    (if h = 0 ∨ (s.ic.wins.find g).isSome then s.ic.wins.find g else some (s.now, s.now + h * 100))

/-- R314 to R316 and R319 at one delivery. -/
def Obligations.IrqDelivery : Prop :=
  ∀ (n : Fin 1023) (s : State), s.ic.gated = false →
    (s.deliverable n.val → s.groupHolds (n.val / 16) = false →
      (∀ b e, s.ic.wins.find (n.val / 16) = some (b, e) → s.now < e) →
      (∀ k x, s.chosen (s.ist n.val) = some (k, x) → s.targetOpen x ∧
        ∃ t, exec (.interruptDelivery n) s = .next t ∧ Obligations.opensWindow (n.val / 16) s t ∧
          (∀ m, m ≠ n.val → t.ist m = s.ist m) ∧
          t.ist n.val = { s.ist n.val with
            rrNext := (k + 1) % 4, latched := if x.isCp then none else some s.cyc } ∧
          t.ic.reqs = s.ic.reqs ++ (if x.isCp then [(n.val, x.vector)] else []) ∧
          (∃ o, t.ic.latches = s.ic.latches ++
            [⟨n.val, (s.ist n.val).rrNext, if x.isCp then none else some (x.fid, x.vector), o⟩]) ∧
          (s.regB Reg.icCtrl 31 = false → t.fns = s.fns ∧ t.out = s.out) ∧
          t = { s with ic := t.ic, fns := t.fns, out := t.out }) ∧
      (s.chosen (s.ist n.val) = none →
        ∃ t, exec (.interruptDelivery n) s = .next t ∧ t = { s with fns := t.fns, out := t.out })) ∧
    ((s.ist n.val).pend = false → exec (.interruptDelivery n) s = .next s) ∧
    ((s.ist n.val).mask = true → s.regB Reg.icCtrl 31 = false → exec (.interruptDelivery n) s = .next s)

/-- R319's end tick and R320. -/
def Obligations.IrqHoldoff : Prop :=
  ∀ (g : Fin 64) (s : State),
    (s.ic.wins.find g.val = none → exec (.holdoffWindowEnd g) s = .next s) ∧
    (∀ b e, s.ic.wins.find g.val = some (b, e) → s.now < e → exec (.holdoffWindowEnd g) s = .next s) ∧
    (∀ b e, s.ic.wins.find g.val = some (b, e) → e ≤ s.now → s.ic.gated = false →
      ∃ t, exec (.holdoffWindowEnd g) s = .next t ∧
        (t.ic.wins.find g.val = none ∨
          t.ic.wins.find g.val = some (s.now, s.now + s.regF (Reg.grpHoldoff g.val) 0 16 * 100)) ∧
        (∀ m, m ≠ g.val → t.ic.wins.find m = s.ic.wins.find m) ∧
        (∀ n, n / 16 ≠ g.val → t.ist n = s.ist n) ∧
        (∀ n k x, n / 16 = g.val → s.deliverable n → s.chosen (s.ist n) = some (k, x) → x.isCp = false →
          (t.ist n).latched = some s.cyc) ∧
        t = { s with ic := t.ic }) ∧
    (∀ b e (m : Fin 1023), s.ic.wins.find g.val = some (b, e) → e ≤ s.now → s.ic.gated = false → m.val / 16 = g.val →
      s.deliverable m.val →
      ∃ t, exec (.interruptDelivery m) s = .next t ∧
        (∀ n k x, n / 16 = g.val → s.deliverable n → s.chosen (s.ist n) = some (k, x) → x.isCp = false →
          (t.ist n).latched = some s.cyc) ∧
        t = { s with ic := t.ic, fns := t.fns, out := t.out }) ∧
    (∀ (a : Agent) (v : Word), s.live a →
      if a.isVf = false ∧ ((a.isPf ∧ s.ownsInGroup g.val a.code) ∨ s.holds0 a) then
        ∃ t, exec (.grpHoldoffWrite g a v) s = .next t ∧
          t.regF (Reg.grpHoldoff g.val) 0 16 = fld v 0 16 ∧
          (∀ off, off ≠ Reg.grpHoldoff g.val → t.reg off = s.reg off) ∧ t = { s with regs := t.regs }
      else exec (.grpHoldoffWrite g a v) s = .next (s.protoEventA a (Reg.grpHoldoff g.val)))

/-- R316: CLAIM and COMPLETE of a source by the processor it was requested of. -/
def Obligations.ClaimAndComplete : Prop :=
  ∀ (k : Fin 4) (s : State), s.clk.alive →
    (s.regB Reg.icCtrl 31 = false ∨ s.regB (Reg.cpCtrl k.val) 31 = false →
      ∀ n, (n, k.val) ∈ s.ic.reqs → (∀ m, (m, k.val) ∈ s.ic.reqs → n ≤ m) →
      ∃ t, exec (.claim k ⟨.cp k, []⟩) s = .next t ∧ t.out = s.out ++ [.readWord (Reg.icClaim k.val) (loW n)] ∧
        t.ist n = { s.ist n with pend := (s.ist n).reRaised, reRaised := false, active := true,
                                 claimedBy := some k.val } ∧
        (∀ m, m ≠ n → t.ist m = s.ist m) ∧ t.ic.reqs = s.ic.reqs.filter (fun r => r.1 != n) ∧
        t = { s with ic := t.ic, out := t.out }) ∧
    (∀ (v : Word) (n : Nat), fld v 0 10 = n → (s.ist n).active → (s.ist n).claimedBy = some k.val →
      ∃ t, exec (.complete k (.cp k) v) s = .next t ∧
        t.ist n = { s.ist n with active := false, claimedBy := none } ∧ (∀ m, m ≠ n → t.ist m = s.ist m) ∧
        t = { s with ic := t.ic })

/-- R317: SRC_PEND_SET and SRC_PEND_CLR by those it names. -/
def Obligations.PendingBits : Prop :=
  ∀ (n : Fin 1023) (a : Agent) (v : Word) (s : State), s.live a → fld v 0 10 = n.val →
    (a.isCp ∨ (s.ist n.val).owner = a.code) →
    (∃ t, exec (.srcPendSet a v) s = .next t ∧
      (s.ic.gated = false →
        (t.ist n.val).pend = true ∧
        t.ist n.val = { s.ist n.val with pend := true, reRaised := (t.ist n.val).reRaised } ∧
        ((∃ l, (s.ist n.val).latched = some l ∧ l < s.cyc) → (t.ist n.val).reRaised = true)) ∧
      (s.ic.gated = true → t.ic = { s.ic with caught := s.ic.caught ++ [n.val] }) ∧
      (∀ m, m ≠ n.val → t.ist m = s.ist m) ∧ t = { s with ic := t.ic }) ∧
    (∃ t, exec (.srcPendClr a v) s = .next t ∧ t.ist n.val = { s.ist n.val with pend := false, reRaised := false } ∧
      (∀ m, m ≠ n.val → t.ist m = s.ist m) ∧ t.ic.reqs = s.ic.reqs.filter (fun r => r.1 != n.val) ∧
      t = { s with ic := t.ic })

/-- R316 and R317 where they give nothing, and the control processor's half of R318. -/
def Obligations.IrqOthers : Prop :=
  ∀ (k : Fin 4) (v : Word) (s : State), s.clk.alive →
    (∀ (b : Agent) (w : Word), ∃ u, exec (.srcPendClr b w) s = .next u ∧
      exec (.claim k ⟨.cp k, [.pendClr b w]⟩) s = exec (.claim k ⟨.cp k, []⟩) u) ∧
    (∀ (b : Agent) (w : Word), ∃ u, exec (.istCommit b w none) s = .next u ∧
      exec (.claim k ⟨.cp k, [.istCommit b w]⟩) s = exec (.claim k ⟨.cp k, []⟩) u) ∧
    (∀ f : Fid, ∃ u, exec (.flr f) s = .next u ∧
      exec (.claim k ⟨.cp k, [.flr f]⟩) s = exec (.claim k ⟨.cp k, []⟩) u) ∧
    ((∀ m, (m, k.val) ∉ s.ic.reqs) ∨ (s.regB Reg.icCtrl 31 ∧ s.regB (Reg.cpCtrl k.val) 31) →
      ∃ t, exec (.claim k ⟨.cp k, []⟩) s = .next t ∧ t.out = s.out ++ [.readWord (Reg.icClaim k.val) 1023] ∧
        t.regF Reg.icCtrl 0 16 = satInc 16 (s.regF Reg.icCtrl 0 16) ∧
        (∀ off, off ≠ Reg.icCtrl → t.reg off = s.reg off) ∧ t = { s with regs := t.regs, out := t.out }) ∧
    (∀ a, s.live a → a ≠ .cp k → a.isVf = false →
      exec (.claim k ⟨a, []⟩) s = .next (s.emit (.readWord (Reg.icClaim k.val) 1023)) ∧
      exec (.complete k a v) s = .next s) ∧
    (∀ a, s.live a → a.isVf → exec (.claim k ⟨a, []⟩) s = .next (s.emit (.readWord (Reg.icClaim k.val) 0)) ∧
      exec (.complete k a v) s = .next (s.protoEventA a (Reg.icComplete k.val))) ∧
    ((s.ist (fld v 0 10)).active = false ∨ (s.ist (fld v 0 10)).claimedBy ≠ some k.val →
      exec (.complete k (.cp k) v) s = .next s) ∧
    (∀ a, s.live a → fld v 0 10 = 1023 → exec (.srcPendSet a v) s = .next s ∧ exec (.srcPendClr a v) s = .next s) ∧
    (∀ a, s.live a → fld v 0 10 ≠ 1023 → a.isCp = false → (s.ist (fld v 0 10)).owner ≠ a.code →
      exec (.srcPendSet a v) s = .next (s.protoEventA a Reg.srcPendSet) ∧
      exec (.srcPendClr a v) s = .next (s.protoEventA a Reg.srcPendClr)) ∧
    (∃ t, exec (.cpMaskWrite k (.cp k) v) s = .next t ∧ t.regB (Reg.cpCtrl k.val) 31 = bit v 31 ∧
      (∀ off, off ≠ Reg.cpCtrl k.val → t.reg off = s.reg off) ∧
      (bit v 31 = false → t.ic = s.ic) ∧
      (bit v 31 → s.ic.latches = [] →
        (∀ n, (n, k.val) ∈ s.ic.reqs → (s.ist n).pend → s.cyc ≤ s.ic.reqAt.get n 0 + 4 →
          t.ist n = { s.ist n with reRaised := true }) ∧
        t.ic = { s.ic with ist := t.ic.ist }) ∧
      (bit v 31 → ∀ l, s.ic.latches = [l] → (l.src, k.val) ∈ s.ic.reqs →
        t.ist l.src = { s.ist l.src with rrNext := l.before, latched := none } ∧ (∀ j, (l.src, j) ∉ t.ic.reqs)) ∧
      t = { s with regs := t.regs, ic := t.ic }) ∧
    (∀ a, s.live a → a ≠ .cp k → exec (.cpMaskWrite k a v) s = .next (s.protoEventA a (Reg.cpCtrl k.val)))

/-- R321, R324, R325 and the masks of R315. -/
def Obligations.IrqSleep : Prop :=
  ∀ (f : Fid) (s : State), s.fnLive f.val →
    (s.ic.gated = true → exec (.d3hotEntry f) s = .next s) ∧
    (s.ic.gated = false → ∃ t, exec (.d3hotEntry f) s = .next t ∧ (t.fn f.val).d3hot = true ∧
      (∀ n, s.deliverable n → s.choosesFn n f.val → (t.ist n).latched = some s.cyc) ∧
      (∀ l ∈ t.ic.latches, ∀ v, l.msg ≠ some (f.val, v)) ∧
      (∀ g, g ≠ f.val → (t.fn g).d3hot = (s.fn g).d3hot) ∧
      (∃ sent, t.out = s.out ++ sent ++ [.configDone f.val]) ∧
      t = { s with ic := t.ic, out := t.out, regs := t.regs, fns := t.fns, clk := t.clk }) ∧
    (s.clk.inDeep = false →
      ∃ t, exec (.d0Return f) s = .next t ∧ (t.fn f.val).d3hot = false ∧
        (s.ic.gated = false →
          let u := s.setFn f.val { s.fn f.val with d3hot := false }
          ∀ n, u.deliverable n → u.choosesFn n f.val → (t.ist n).latched = some s.cyc) ∧
        (s.ic.gated = true → t.ic = { s.ic with returned := s.ic.returned ++ [f.val] }) ∧
        (∀ g, g ≠ f.val → t.fn g = s.fn g) ∧
        t.out = s.out ++ [.configDone f.val] ∧
        t = { s with ic := t.ic, out := t.out, fns := t.fns }) ∧
    (s.ic.gated = false ∨ (s.clk.inDeep = true ∧ ∀ n ∈ s.ic.caught, s.wakesIc n = false) →
      exec .icWakeRestore s = .next s) ∧
    (s.ic.gated = true → s.clk.inDeep = false ∨ (∃ n ∈ s.ic.caught, s.wakesIc n = true) →
      ∃ t, exec .icWakeRestore s = .next t ∧ t.ic.gated = false ∧ t.ic.caught = [] ∧ t.ic.returned = [] ∧
        (∀ n ∈ s.ic.caught, n < 1023 → (t.ist n).pend = true) ∧
        t.regF Reg.restores 0 16 = satInc 16 (s.regF Reg.restores 0 16) ∧
        (∀ g b e, t.ic.wins.find g = some (b, e) → s.now < e) ∧
        t = { s with ic := t.ic, out := t.out, regs := t.regs, fns := t.fns }) ∧
    (∀ (vec : Option (Fin 2048)) (masked : Bool),
      let limit := if isPf f.val then 2048 else 16
      ∃ t, exec (.msiXMaskWrite f vec masked) s = .next t ∧
        (t.fn f.val).funcMask = (if vec = none then masked else (s.fn f.val).funcMask) ∧
        (∀ v, v ∈ (t.fn f.val).unmasked ↔
          (if vec.map Fin.val = some v ∧ v < limit then masked = false else v ∈ (s.fn f.val).unmasked)) ∧
        (let goes := (s.fn f.val).pba.filter fun v => !(t.fn f.val).funcMask && (t.fn f.val).unmasked.contains v
         (s.ideDrops (portOf f.val) .device = true → t = { s with fns := t.fns }) ∧
         (s.ideDrops (portOf f.val) .device = false → t.out = s.out ++ goes.map (.msix f.val) ∧
           (goes ≠ [] → t.regF (Reg.portStatus (portOf f.val)) 0 3 =
             (let pm := s.regF (Reg.portStatus (portOf f.val)) 0 3; if 2 ≤ pm ∧ pm ≤ 4 then 0 else pm))) ∧
         (∀ v, v ∈ (t.fn f.val).pba ↔ v ∈ (s.fn f.val).pba ∧ v ∉ goes)) ∧
        (∀ g, g ≠ f.val → t.fn g = s.fn g) ∧ (∀ off, off ≠ Reg.portStatus (portOf f.val) → t.reg off = s.reg off) ∧
        t = { s with fns := t.fns, out := t.out, regs := t.regs }) ∧
    (∀ (n : Fin 2) (a : Agent) (v : Word), s.live a →
      (bit v 30 = false → a ≠ .fn ⟨64 * n.val, by omega⟩ →
        exec (.force n a v) s = .next (s.protoEventA a (Reg.wakeCtrl n.val))) ∧
      (a.isVf = false → a = .fn ⟨64 * n.val, by omega⟩ ∨ bit v 30 →
        let kept := if a = .fn ⟨64 * n.val, by omega⟩ then
            (v &&& 0x9800003F) ||| (s.reg (Reg.wakeCtrl n.val) &&& 0x20000000)
          else s.reg (Reg.wakeCtrl n.val)
        ∃ t, exec (.force n a v) s = .next t ∧
          t.reg (Reg.wakeCtrl n.val) =
            (if bit v 30 ∧ bit kept 31 ∧ (s.port n.val).d3cold then setFld kept 29 1 1 else kept) ∧
          (∀ off, off ≠ Reg.wakeCtrl n.val → t.reg off = s.reg off) ∧ t = { s with regs := t.regs }))

/-- The capture copy of one agent behind one select register is replaced, and nothing else changes. -/
def Obligations.captures (a : Agent) (off : Nat) (w : Window) (s t : State) : Prop :=
  t.window a.code off = w ∧ (∀ c o, c ≠ a.code ∨ o ≠ off → t.window c o = s.window c o) ∧
  (∀ c, t.agent c = { s.agent c with win := (t.agent c).win }) ∧ t = { s with agents := t.agents }

/-- R86, R301, R313, R34, R262, R297, R362, R380 and R419: what each select register captures. -/
def Obligations.WindowSelects : Prop :=
  ∀ (a : Agent) (v : Word) (s : State), s.live a →
    (s.admits a Reg.qtSel → ∃ t, exec (.qtSel a v) s = .next t ∧ Obligations.captures a Reg.qtSel
      ⟨at_ 0 (fld v 0 13), if s.queueSelectable a (fld v 0 13) then s.queueWords (fld v 0 13) else zeros 8⟩ s t) ∧
    (s.admits a Reg.istSel → ∃ t, exec (.istSel a v) s = .next t ∧ Obligations.captures a Reg.istSel
      ⟨at_ 0 (fld v 0 10), if s.istSelectable a (fld v 0 10) then (s.ist (fld v 0 10)).words else zeros 5⟩ s t) ∧
    (s.admits a Reg.chSel → ∃ t, exec (.chSel a v) s = .next t ∧ Obligations.captures a Reg.chSel
      ⟨at_ 0 (fld v 0 8), if s.chanSelectable a (fld v 0 8) then (s.chan (fld v 0 8)).words else zeros 4⟩ s t) ∧
    (s.admits a Reg.snapSel → ∃ t, exec (.snapSel a v) s = .next t ∧
      Obligations.captures a Reg.snapSel (s.recordSel a v false) s t) ∧
    (s.admits a Reg.statSel → ∃ t, exec (.statSel a v) s = .next t ∧
      Obligations.captures a Reg.statSel (s.recordSel a v true) s t) ∧
    (s.admits a Reg.flowSel → ∃ t w, exec (.flowSel a v) s = .next t ∧ Obligations.captures a Reg.flowSel w s t ∧
      (a.isVf = false → fld v 0 12 % 8 < 6 → (s.flow (fld v 0 12)).image ≠ [] →
        w = ⟨at_ 0 (fld v 0 12), ((s.flow (fld v 0 12)).seen s.cyc).words⟩)) ∧
    (s.admits a Reg.btSel → ∃ t w, exec (.btSel a v) s = .next t ∧ Obligations.captures a Reg.btSel w s t ∧
      (a.isVf = false → fld v 12 17 < s.poolCount (fld v 29 3) →
        w = ⟨v &&& 0xFFFFF000, (s.buf (handleKey v)).words⟩)) ∧
    (s.admits a Reg.keySlotSel → ∃ t w, exec (.keySlotSel a v) s = .next t ∧
      Obligations.captures a Reg.keySlotSel w s t ∧
      (let k := s.sec.slots.get (fld v 0 7) KeySlot.reset
       maySelect a k.owner = false → w = ⟨at_ 30 3 ||| at_ 0 (fld v 0 7), zeros 4⟩)) ∧
    (s.admits a Reg.histSel → ∃ t w, exec (.histSel a v) s = .next t ∧ Obligations.captures a Reg.histSel w s t ∧
      (∀ h, s.fc.hist.find (fld v 0 4) = some h →
        w = (if a.isVf ∧ h.fid ≠ a.fid? then ⟨at_ 30 3 ||| at_ 0 (fld v 0 4), zeros 8⟩
             else ⟨at_ 0 (fld v 0 4), h.words⟩))) ∧
    (s.admits a Reg.sessSel → ∃ t w, exec (.sessSel a v) s = .next t ∧ Obligations.captures a Reg.sessSel w s t ∧
      ((s.session (fld v 0 9)).kind ≠ 0 → w = ⟨at_ 0 (fld v 0 9), (s.session (fld v 0 9)).words⟩)) ∧
    (∀ c ∈ [(Instr.qtSel a v, Reg.qtSel), (.istSel a v, Reg.istSel), (.chSel a v, Reg.chSel), (.snapSel a v, Reg.snapSel),
        (.statSel a v, Reg.statSel), (.flowSel a v, Reg.flowSel), (.btSel a v, Reg.btSel),
        (.keySlotSel a v, Reg.keySlotSel), (.histSel a v, Reg.histSel), (.sessSel a v, Reg.sessSel)],
      s.admits a c.2 = false → exec c.1 s = .next (s.protoEventA a c.2))

/-- The status word of a commit register's last outcome (Table 04-12). -/
def Obligations.commitWord (c : Nat) : Word := if c = 0 then 0 else at_ 31 1 ||| at_ 28 c

/-- Only the commit status of agent `a` behind `off` changes among the agents' parts. -/
def Obligations.onlyStatus (a : Agent) (off c : Nat) (s t : State) : Prop :=
  (t.agent a.code).status.get off 0 = Obligations.commitWord c ∧
  t.agent a.code = { s.agent a.code with status := (t.agent a.code).status } ∧ (∀ k, k ≠ a.code → t.agent k = s.agent k)

/-- Causes 1 to 5 of R87 do not apply to a PF's copy; the MEM = 1 form of cause 5 is left to `TableCommits`. -/
def Obligations.queueCopyOk (f q : Nat) (new : Queue) (copy : List Word) (s : State) : Prop :=
  let old := s.queue q
  (old.ty = 0 ∨ mine f old.fid) ∧ (new.ty = 0 ∨ mine f new.fid) ∧
  (old.en ∨ new.en → ∀ x ∈ queueSetup, x.of copy = x.of (s.queueWords q)) ∧
  (new.en → old.en = false → new.ty = 1 → (s.queue new.defaultCq).en ∧ (s.queue new.defaultCq).ty = 2 ∧
    (s.queue new.defaultCq).fid = new.fid) ∧
  new.ty ≠ 3 ∧ 4 ≤ new.logSize ∧ new.base % 4096 = 0 ∧ new.mem = false ∧
  (isPf new.fid = false → ∀ e ∈ s.qs.tbl, e.1 ≠ q → e.2.ty ≠ 0 → e.2.fid = new.fid → e.2.dbSlot ≠ new.dbSlot)

/-- Causes 1 to 5 of R313 do not apply to a PF's copy; targets of other functions are left to `TableCommits`. -/
def Obligations.istCopyOk (f : Nat) (old new : IstEntry) (copy : List Word) : Prop :=
  (old.owner = 0 ∨ ownerMine f old.owner) ∧ (new.owner = 0 ∨ ownerMine f new.owner) ∧
  (∀ x ∈ new.targets, x.valid → x.isCp = false ∧ x.fid + 1 = new.owner ∧
    x.vector < (if isPf x.fid then 2048 else 16)) ∧
  fld (wd copy 0) 8 18 = 0 ∧ (∀ i ∈ [1, 2, 3, 4], fld (wd copy i) 18 12 = 0)

/-- R86, R87, R89, R301 and R313: a PF's commit that no cause refuses. -/
def Obligations.CommitsAccepted : Prop :=
  ∀ (f : Fid) (v : Word) (s : State), isPf f.val → s.live (.fn f) → bit v 0 = true →
    (s.admits (.fn f) Reg.qtCommit → ∀ (q : Nat) (copy : List Word),
      s.window (Agent.fn f).code Reg.qtSel = ⟨at_ 0 q, copy⟩ → q < 8192 →
      let old := s.queue q
      let new := old.fromWords copy
      Obligations.queueCopyOk f.val q new copy s →
      ∃ t, exec (.qtCommit (.fn f) v none) s = .next t ∧ Obligations.onlyStatus (.fn f) Reg.qtStatus 0 s t ∧
        t.queue q = (if new.en ∧ old.en = false then
            { new with head := 0, tail := 0, phase := new.ty == 2 || new.phase, fetchErr := false }
          else if new.en then new else { new with fetchErr := false }) ∧
        (∀ m, m ≠ q → t.queue m = s.queue m) ∧
        (new.en → old.en → t.mem = s.mem) ∧
        t = { s with agents := t.agents, qs := { s.qs with tbl := t.qs.tbl }, mem := { s.mem with undef := t.mem.undef } }) ∧
    (s.admits (.fn f) Reg.istCommit → ∀ (n : Nat) (copy : List Word),
      s.window (Agent.fn f).code Reg.istSel = ⟨at_ 0 n, copy⟩ → n < 1023 →
      let new := (s.ist n).fromWords copy
      Obligations.istCopyOk f.val (s.ist n) new copy →
      ∃ t, exec (.istCommit (.fn f) v none) s = .next t ∧ Obligations.onlyStatus (.fn f) Reg.istStatus 0 s t ∧
        t.ist n = { new with reRaised := (t.ist n).reRaised, rrNext := (t.ist n).rrNext, latched := (t.ist n).latched } ∧
        ((∀ l ∈ s.ic.latches, l.src ≠ n) → t.ist n = { new with reRaised := (t.ist n).reRaised }) ∧
        (∀ m, m ≠ n → t.ist m = s.ist m) ∧
        (new.en = false → ∀ r ∈ t.ic.reqs, r.1 ≠ n) ∧ (∀ r ∈ s.ic.reqs, r.1 ≠ n → r ∈ t.ic.reqs) ∧
        t = { s with agents := t.agents, ic := t.ic }) ∧
    (s.admits (.fn f) Reg.chCommit → ∀ (n : Nat) (copy : List Word),
      s.window (Agent.fn f).code Reg.chSel = ⟨at_ 0 n, copy⟩ → n < 256 →
      ((s.chan n).assigned = false ∨ mine f.val (s.chan n).owner) →
      (bit (wd copy 0) 31 = false ∨ mine f.val (fld (wd copy 0) 24 7)) →
      ((s.chan n).state = 0 ∨ ∀ x ∈ chanSetup, x.of copy = x.of (s.chan n).words) →
      ∃ t, exec (.chCommit (.fn f) v none) s = .next t ∧ Obligations.onlyStatus (.fn f) Reg.dmaChStatus 0 s t ∧
        t.chan n = { s.chan n with assigned := bit (wd copy 0) 31, owner := fld (wd copy 0) 24 7,
                                   prio := fld (wd copy 0) 21 3 } ∧
        (∀ m, m ≠ n → t.chan m = s.chan m) ∧ t = { s with agents := t.agents, dma := t.dma })

/-- R86, R87, R89, R301 and R313 for one commit. -/
def Obligations.TableCommits : Prop :=
  ∀ (a : Agent) (v : Word) (s : State), s.live a → bit v 0 = true →
    (s.admits a Reg.qtCommit →
      let w := s.window a.code Reg.qtSel
      let q := fld w.sel 0 13
      let c := s.queueCause a q w.words none
      let new := (s.queue q).fromWords w.words
      (c = 1 ↔ s.queueSelectable a q = false) ∧
      ∃ t, exec (.qtCommit a v none) s = .next t ∧ Obligations.onlyStatus a Reg.qtStatus c s t ∧
        (c ≠ 0 → t.queue q = s.queue q) ∧
        (c = 0 → (t.queue q).en = new.en ∧ (t.queue q).fid = new.fid ∧ (t.queue q).base = new.base ∧
          (t.queue q).ty = new.ty ∧ (t.queue q).weight = new.weight ∧ (t.queue q).logSize = new.logSize ∧
          (t.queue q).defaultCq = new.defaultCq ∧ (t.queue q).irqSrc = new.irqSrc ∧
          (new.en → (s.queue q).en = false → (t.queue q).head = 0 ∧ (t.queue q).tail = 0 ∧
            (t.queue q).fetchErr = false ∧ (new.ty = 2 → (t.queue q).phase = true)) ∧
          (new.en = false → (t.queue q).fetchErr = false)) ∧
        (∀ m, m ≠ q → t.queue m = s.queue m) ∧ (c ≠ 0 → t.mem = s.mem) ∧
        t = { s with agents := t.agents, qs := { s.qs with tbl := t.qs.tbl }, mem := { s.mem with undef := t.mem.undef },
                     fresh := t.fresh, freshAt := t.freshAt }) ∧
    (s.admits a Reg.istCommit →
      let w := s.window a.code Reg.istSel
      let n := fld w.sel 0 10
      let c := s.istCause a n w.words none
      let new := (s.ist n).fromWords w.words
      (c = 1 ↔ s.istSelectable a n = false) ∧
      ∃ t, exec (.istCommit a v none) s = .next t ∧ Obligations.onlyStatus a Reg.istStatus c s t ∧
        (c ≠ 0 → t.ic = s.ic) ∧
        (c = 0 →
          t.ist n = { new with reRaised := (t.ist n).reRaised, rrNext := (t.ist n).rrNext, latched := (t.ist n).latched } ∧
          ((∀ l ∈ s.ic.latches, l.src ≠ n) → t.ist n = { new with reRaised := (t.ist n).reRaised }) ∧ new.pend = (s.ist n).pend ∧
          new.active = (s.ist n).active ∧ new.rrNext = (s.ist n).rrNext ∧
          (new.en = false → ∀ r ∈ t.ic.reqs, r.1 ≠ n) ∧ (∀ r ∈ s.ic.reqs, r.1 ≠ n → r ∈ t.ic.reqs)) ∧
        (∀ m, m ≠ n → t.ist m = s.ist m) ∧
        t = { s with agents := t.agents, ic := t.ic, fresh := t.fresh, freshAt := t.freshAt }) ∧
    (s.admits a Reg.chCommit →
      let w := s.window a.code Reg.chSel
      let n := fld w.sel 0 8
      let c := s.chanCause a n w.words none
      (c = 1 ↔ s.chanSelectable a n = false) ∧
      ∃ t, exec (.chCommit a v none) s = .next t ∧ Obligations.onlyStatus a Reg.dmaChStatus c s t ∧
        (c ≠ 0 → t.chan n = s.chan n) ∧
        (c = 0 → t.chan n = { s.chan n with assigned := bit (wd w.words 0) 31, owner := fld (wd w.words 0) 24 7,
                                            prio := fld (wd w.words 0) 21 3 }) ∧
        (∀ m, m ≠ n → t.chan m = s.chan m) ∧
        t = { s with agents := t.agents, dma := t.dma, fresh := t.fresh, freshAt := t.freshAt })

/-- Registers whose writable fields are RWS, and W1C, and no other (Table 19-4 to Table 19-17). -/
def Obligations.rwsRegs : List Nat :=
  [Reg.scratch 0, Reg.scratch 1, Reg.stepCtrl, Reg.pmbCfg, Reg.pmbAddr, Reg.crossTicks, Reg.icCtrl, Reg.chRetry,
   Reg.dmaArbCfg, Reg.mcArbCfg, Reg.arbPrio, Reg.schedCfg]

/-- R5, R37, R118, R412, R417, R418 and R440. -/
def Obligations.RegisterWrites : Prop :=
  ∀ (a : Agent) (s : State), s.live a →
    (∀ off v, off % 4 = 0 →
      s.inView a off = false ∨ (s.ready = false ∧ a.isCp = false ∧ off / 65536 ∉ [3, 4, 5, 6, 8]) →
      exec (.registerWrite a off 4 v) s = .next (s.protoEventA a off)) ∧
    (∀ off size v, ¬(size = 4 ∧ off % 4 = 0) → ¬(size = 8 ∧ off % 8 = 0) →
      exec (.registerWrite a off size v) s = .next (s.protoEventA a off)) ∧
    (∀ off v, off % 8 = 0 → ∃ t, exec (.registerWrite a off 4 (v.setWidth 32 |>.setWidth 64)) s = .next t ∧
      exec (.registerWrite a off 8 v) s = exec (.registerWrite a (off + 4) 4 (v >>> 32)) t) ∧
    (∀ off ∈ Obligations.rwsRegs, ∀ v : Word, a.isVf = false → s.admits a off →
      let c := Reg.w1cMask off &&& ~~~(s.freshBits off)
      let m := Reg.rwsMask off
      let cleared := s.reg off &&& ~~~(v &&& c)
      let reached := ∃ f ∈ s.span.frames, f.stage = .waiting ∧ f.starve < s.schedLimit ∧ max 1 (fld v 0 8) ≤ f.starve
      (s.holds0 a → off = Reg.schedCfg → reached →
        ∃ t, exec (.registerWrite a off 4 (v.setWidth 64)) s = .next t ∧ t.regB off 31 = true ∧
          t.regF off 0 8 = fld v 0 8 ∧ (∀ o, o ≠ off → t.reg o = s.reg o) ∧ t.ic = (s.raise 961).ic ∧
          t = { s with regs := t.regs, ic := t.ic, fresh := t.fresh, freshAt := t.freshAt }) ∧
      (s.holds0 a → ¬(off = Reg.schedCfg ∧ reached) → ∃ t, exec (.registerWrite a off 4 (v.setWidth 64)) s = .next t ∧
        t.reg off = (cleared &&& ~~~m) ||| (v &&& m) ∧ (∀ o, o ≠ off → t.reg o = s.reg o) ∧
        t = { s with regs := t.regs }) ∧
      (s.holds0 a = false → v &&& m = s.reg off &&& m →
        ∃ t, exec (.registerWrite a off 4 (v.setWidth 64)) s = .next t ∧ t.reg off = cleared ∧
          (∀ o, o ≠ off → t.reg o = s.reg o) ∧ t = { s with regs := t.regs }) ∧
      (s.holds0 a = false → v &&& m ≠ s.reg off &&& m →
        ∃ u : State, u.reg off = cleared ∧ (∀ o, o ≠ off → u.reg o = s.reg o) ∧ u = { s with regs := u.regs } ∧
          exec (.registerWrite a off 4 (v.setWidth 64)) s = .next (u.protoEventA a off))) ∧
    (∀ v : Word, exec (.minStep a v) s = exec (.registerWrite a Reg.stepCtrl 4 (v.setWidth 64)) s ∧
      let c := Reg.w1cMask Reg.stepCtrl &&& ~~~(s.freshBits Reg.stepCtrl)
      let m := Reg.rwsMask Reg.stepCtrl
      (a.isVf = false → s.admits a Reg.stepCtrl → s.holds0 a → ∃ t, exec (.minStep a v) s = .next t ∧
        t.reg Reg.stepCtrl = (s.reg Reg.stepCtrl &&& ~~~(v &&& c) &&& ~~~m) ||| (v &&& m) ∧
        (∀ o, o ≠ Reg.stepCtrl → t.reg o = s.reg o) ∧ t = { s with regs := t.regs }))

/-- R8 over the pairs of the register window, R46 and R38. -/
def Clause.registerPairs : Prop :=
  ∀ (a : Agent) (s : State), s.live a →
    (∀ p ∈ Reg.pairs, s.inView a p.1 → s.inView a p.2 →
      ∃ t, exec (.pairLoRead a p.1 4) s = .next t ∧ t.out = s.out ++ [.readWord p.1 (s.regValue a p.1)] ∧
        (t.agent a.code).latch.find p.1 = some (s.regValue a p.2) ∧
        (∀ c, c ≠ a.code → t.agent c = s.agent c) ∧ t = { s with agents := t.agents, out := t.out } ∧
        ∃ u, exec (.pairLoRead a p.2 4) t = .next u ∧ u.out = t.out ++ [.readWord p.2 (s.regValue a p.2)] ∧
          (u.agent a.code).latch.find p.1 = none ∧ u = { t with agents := u.agents, out := u.out }) ∧
    (∀ p ∈ Reg.pairs, s.inView a p.2 → (s.agent a.code).latch.find p.1 = none →
      exec (.pairLoRead a p.2 4) s = .next (s.emit (.readWord p.2 (s.regValue a p.2)))) ∧
    (∀ f lo hi, a = .fn f → s.admits a Reg.apwinLo → s.admits a Reg.apwinHi →
      ∃ t, exec (.registerWrite a Reg.apwinLo 4 (BitVec.setWidth 64 (lo : Word))) s = .next t ∧
        t.apwinBase f = s.apwinBase f ∧
        ∃ u, exec (.pairHiWrite a Reg.apwinHi hi) t = .next u ∧
          u.apwinBase f = pair64 (hi &&& 0xF) (lo &&& 0xFFFF0000) ∧
          (u.agent a.code).stage.find Reg.apwinLo = none ∧ (∀ g, g ≠ f → u.apwinBase g = s.apwinBase g) ∧
          u = { s with agents := u.agents } ∧
          ∃ w, exec (.pairHiWrite a Reg.apwinHi 0) u = .next w ∧ w.apwinBase f = pair64 0 (lo &&& 0xFFFF0000)) ∧
    (∀ hi, a.isVf = false → s.holds0 a = false → s.admits a Reg.roundBaseHi →
      let lo := (s.agent a.code).stage.get Reg.roundBaseLo (s.regValue a Reg.roundBaseLo)
      ∃ u : State, u.regs = s.regs ∧ u = { s with agents := u.agents } ∧
        exec (.pairHiWrite a Reg.roundBaseHi hi) s =
          .next (if lo = s.reg Reg.roundBaseLo ∧ hi = s.reg Reg.roundBaseHi then u
                 else u.protoEventA a Reg.roundBaseHi))

/-- R6, R422, R417 and R418: reads that clear, and reads that reach nothing. -/
def Clause.rcReads : Prop :=
  ∀ (a : Agent) (off : Nat) (s : State), s.live a →
    (s.inView a off → off % 4 = 0 → Reg.rcMask off ≠ 0 →
      ∃ t, exec (.rcRead a off 4) s = .next t ∧ t.out = s.out ++ [.readWord off (s.regValue a off)] ∧
        t.reg off = (if a.isVf then s.reg off else s.reg off &&& ~~~(Reg.rcMask off &&& ~~~(s.freshBits off))) ∧
        (∀ o, o ≠ off → t.reg o = s.reg o) ∧ t = { s with regs := t.regs, out := t.out }) ∧
    (s.inView a off = false → off % 4 = 0 → exec (.rcRead a off 4) s = .next (s.emit (.readWord off 0))) ∧
    (∀ size, ¬(size = 4 ∧ off % 4 = 0) → ¬(size = 8 ∧ off % 8 = 0) →
      exec (.rcRead a off size) s = .next (s.emit (.readWord off 0)))

/-- R5, R6, R8, R38, R46, R417, R418 and R422. -/
def Obligations.RegisterReads : Prop := Clause.registerPairs ∧ Clause.rcReads

/-- R45 and R46: the request is served or refused as a whole. -/
def Obligations.Aperture : Prop :=
  ∀ (f : Fid) (off : Nat) (data : List Byte) (s : State), s.liveFor f.val .aperture → data ≠ [] →
    off + data.length ≤ 0x100000000 →
    let a := s.apwinBase f + off
    let n := data.length
    let allowed := s.inGf = false ∧ a + n ≤ 0xC00000000 ∧ a + n ≤ s.poolsEnd ∧
      (isPf f.val = true ∨ s.rangeOwned f.val a n = true)
    let woken (t : State) : Prop :=
      (∀ i, i < n → n ≤ 65536 → t.asleep (stackOf (mapGroup s.amap ((a + i) / 65536))) = false) ∧
      (∀ o, (∀ k, o ≠ Reg.stackStatus k) → t.reg o = s.reg o) ∧
      ((∀ k, s.asleep k = false) → t.regs = s.regs ∧ t.mc = s.mc)
    (allowed → s.mem.poisonIn a n = false →
      ∃ t, exec (.apertureRead f off n) s = .next t ∧
        t.out = s.out ++ [.readBytes ((List.range n).map fun i => s.mem.read (a + i))] ∧ woken t ∧
        t = { s with out := t.out, regs := t.regs, mc := t.mc }) ∧
    (allowed → s.ready →
      ∃ t, exec (.apertureWrite f off data) s = .next t ∧ woken t ∧
        (∀ i, i < n → s.mem.claimed (a + i) = false → t.mem.read (a + i) = data.getD i 0) ∧
        (∀ b, b < a ∨ a + n ≤ b → t.mem.read b = s.mem.read b) ∧
        t = { s with mem := t.mem, regs := t.regs, mc := t.mc }) ∧
    (¬allowed →
      exec (.apertureRead f off n) s = .next ((s.protoEvent f.val off).emit (.unsupportedRequest f.val)) ∧
      (s.ready → exec (.apertureWrite f off data) s =
        .next ((s.protoEvent f.val off).emit (.unsupportedRequest f.val)))) ∧
    (s.ready = false → exec (.apertureWrite f off data) s = .next (s.protoEvent f.val off))

/-- R328 to R331. -/
def Obligations.TimersAndPtm : Prop :=
  ∀ (s : State),
    (∀ (n : Fin 64) (a : Agent) (v : Word), s.live a →
      (s.admits a (Reg.timerCmp n.val) → s.ownsTimer n.val a →
        ∃ t, exec (.timerArm n a true v) s = .next t ∧ t.reg (Reg.timerCmp n.val) = v ∧
          t.cmpNow n.val = s.cmpNow n.val ∧ t.timerEn n.val = s.timerEn n.val ∧
          (let u : State := { t with time := { t.time with now := t.now + 1 } }
           u.cmpNow n.val = v ∧ ((s.timer n.val).idleAt ≠ some (s.now + 1) → u.timerEn n.val = true)) ∧
          t.reg (Reg.timerCtrl n.val) = setBit (s.reg (Reg.timerCtrl n.val)) 31 true ∧
          (∀ o, o ≠ Reg.timerCmp n.val → o ≠ Reg.timerCtrl n.val → t.reg o = s.reg o) ∧ t = { s with regs := t.regs, tmr := t.tmr }) ∧
      (s.admits a (Reg.timerCtrl n.val) → s.ownsTimer n.val a →
        let c := s.reg (Reg.timerCtrl n.val)
        ∃ t, exec (.timerArm n a false v) s = .next t ∧
          t.reg (Reg.timerCtrl n.val) =
            ((v &&& 0xC01FFFFF) ||| (c &&& 0x1FE00000) ||| (if bit v 29 ∧ bit (s.freshBits (Reg.timerCtrl n.val)) 29 = false then 0 else c &&& 0x20000000)) ∧
          (bit v 31 → t.timerEn n.val = true) ∧ (∀ m, m ≠ n.val → t.timer m = s.timer m) ∧
          (∀ o, o ≠ Reg.timerCtrl n.val → t.reg o = s.reg o) ∧ t = { s with regs := t.regs, tmr := t.tmr }) ∧
      (∀ cmp, s.ownsTimer n.val a = false → (cmp = true ∨ s.assignsTimer n.val a v = false) →
        let off := if cmp then Reg.timerCmp n.val else Reg.timerCtrl n.val
        exec (.timerArm n a cmp v) s = .next (s.protoEventA a off))) ∧
    (∀ (n : Fin 64),
      (s.timerEn n.val = false ∨ s.past n.val < 0 ∨ (s.timer n.val).doneAt = some s.now → exec (.eventTimerExpiry n) s = .next s) ∧
      (s.timerEn n.val → 0 ≤ s.past n.val → (s.timer n.val).doneAt ≠ some s.now →
        let p := s.timerPeriod n.val
        ∃ t, exec (.eventTimerExpiry n) s = .next t ∧ t.regB (Reg.timerCtrl n.val) 29 = true ∧
          (t.timer n.val).doneAt = some s.now ∧
          (s.cmpWritten n.val → t.reg (Reg.timerCmp n.val) = s.reg (Reg.timerCmp n.val) ∧ t.timerEn n.val = true) ∧
          (s.cmpWritten n.val = false → t.timerEn n.val = decide (p ≠ 0)) ∧
          (s.cmpWritten n.val = false → p = 0 → t.reg (Reg.timerCmp n.val) = s.reg (Reg.timerCmp n.val)) ∧
          (s.cmpWritten n.val = false → p ≠ 0 → ∃ k, 1 ≤ k ∧ t.reg (Reg.timerCmp n.val) = s.cmpNow n.val + loW (k * p) ∧
            s.past n.val < k * p ∧ ((k : Int) - 1) * p ≤ s.past n.val) ∧
          t = { s with regs := t.regs, ic := t.ic, tmr := t.tmr, dma := t.dma, fresh := t.fresh, freshAt := t.freshAt })) ∧
    (s.syncRuns → s.syncDue → ∀ ns,
      let e : Int := ((ns / 10 : Nat) : Int) - s.now
      ∃ t, exec (.ptmDialogue (some ns)) s = .next t ∧
        t.now = (if 1000 < e then ns / 10 else s.now) ∧ t.time.err = (if 1000 < e then 0 else e) ∧
        t.regB Reg.syncStatus 29 = decide (e < -1000) ∧ t.regB Reg.syncStatus 31 = decide (e.natAbs ≤ 1) ∧
        t.regB Reg.syncStatus 28 = s.regB Reg.syncStatus 28 ∧
        t.time.lastSync = some s.time.raw ∧
        (∀ o, o ≠ Reg.syncStatus → t.reg o = s.reg o) ∧ t = { s with regs := t.regs, time := t.time }) ∧
    (s.syncRuns → s.syncDue → ∃ t, exec (.ptmDialogue none) s = .next t ∧ t.now = s.now ∧ t.time.lastSync = some s.time.raw ∧
      (s.time.ptmFails ≠ 2 → t.regs = s.regs) ∧ (s.time.ptmFails = 2 → t.regB Reg.syncStatus 28 = true)) ∧
    (s.syncRuns = false ∨ s.syncDue = false → ∀ m, exec (.ptmDialogue m) s = .next s) ∧
    (∀ (n : Fin 2) (en : Bool), s.portInReset n.val = false → s.clk.alive →
      ∃ t, exec (.ptmEnableWrite n en) s = .next t ∧ (t.port n.val).ptmEn = en ∧
        t.regB Reg.syncStatus 28 =
          (s.regB Reg.syncStatus 28 || (!en && (s.port n.val).ptmEn && s.syncPort == some n.val)) ∧
        t = { s with ports := t.ports, regs := t.regs, time := t.time, ic := t.ic, fresh := t.fresh, freshAt := t.freshAt })

/-- What a reset of the functions that satisfy `p` on port `n` leaves (R62, R63, R326). -/
def Obligations.resetsScope (n : Nat) (p : Nat → Bool) (s t : State) : Prop :=
  (∀ k, t.holder k = if inScope p (s.holder k) then 0 else s.holder k) ∧
  ((∃ k, inScope p (s.holder k) = true) → t.regB Reg.semEvent (30 + n) = true) ∧
  (∀ k e, inScope p ((s.box k).endOf e).owner → (t.box k).endOf e = MbxEnd.reset) ∧
  (∀ k e, inScope p ((s.box k).endOf e).owner = false → ((t.box k).endOf e).owner = ((s.box k).endOf e).owner) ∧
  (∀ k e, inScope p ((s.box k).endOf e).owner → ((s.box k).endOf (!e)).owner ≠ 0 →
    inScope p ((s.box k).endOf (!e)).owner = false →
    (t.box k).endOf (!e) = { (s.box k).endOf (!e) with
      queue := [], aborted := true, abortCause := 1, discarded := ((s.box k).endOf (!e)).queue.length, waitEmpty := false }) ∧
  (∀ c, t.agent c = if inScope p c then AgentSt.reset else s.agent c) ∧
  (∀ f, t.fn f = if p f then FnSt.reset else s.fn f) ∧
  (∀ m, inScope p (t.ist m).owner = false) ∧
  (∀ q, (s.queue q).ty ≠ 0 → p (s.queue q).fid → (t.queue q).en = false ∧ (t.queue q).ty = 0) ∧
  t.now = s.now

/-- Table 03-15's rows for a port, as R62 and R63 carry them out. -/
def Obligations.FunctionResets : Prop :=
  ∀ (s : State),
    (∀ (n : Fin 2) (held : Nat), 100 ≤ held → s.clk.alive → (s.port n.val).perst = false →
      ∃ t, exec (.perstAssert n held) s = .next t ∧ Obligations.resetsScope n.val (ofPort n.val) s t ∧
        (t.port n.val).perst = true ∧ t.portInReset n.val = true ∧ t.regF (Reg.portStatus n.val) 16 4 = 0 ∧
        t.regF (Reg.portStatus n.val) 24 8 = (s.regF (Reg.portStatus n.val) 24 8 + 1) % 256) ∧
    (∀ (n : Fin 2) (held : Nat), held < 100 → exec (.perstAssert n held) s = .next s) ∧
    (∀ n : Fin 2, s.clk.alive → (s.port n.val).perst = false →
      ∃ t, exec (.hotReset n) s = .next t ∧ Obligations.resetsScope n.val (ofPort n.val) s t ∧
        t.portInReset n.val = true ∧ t.regF (Reg.portStatus n.val) 16 4 = 0 ∧
        t.regF (Reg.portStatus n.val) 24 8 = (s.regF (Reg.portStatus n.val) 24 8 + 1) % 256) ∧
    (∀ n : Fin 2, s.regF (Reg.portStatus n.val) 16 4 ≠ 0 →
      ∃ t, exec (.linkDown n) s = .next t ∧ Obligations.resetsScope n.val (ofPort n.val) s t ∧
        t.regF (Reg.portStatus n.val) 16 4 = 0 ∧
        t.regF (Reg.portStatus n.val) 24 8 = (s.regF (Reg.portStatus n.val) 24 8 + 1) % 256) ∧
    (∀ f : Fid, s.fnLive f.val → isPf f.val = true →
      ∃ t, exec (.flr f) s = .next t ∧ Obligations.resetsScope (portOf f.val) (ofPort (portOf f.val)) s t) ∧
    (∀ f : Fid, s.fnLive f.val → isPf f.val = false →
      ∃ t, exec (.flr f) s = .next t ∧ Obligations.resetsScope (portOf f.val) (fun g => g == f.val) s t) ∧
    (∀ n : Fin 2, s.fnLive (64 * n.val) →
      ∃ t, exec (.vfEnableClear n) s = .next t ∧
        Obligations.resetsScope n.val (fun g => portOf g == n.val && !isPf g) s t ∧ (t.port n.val).numVfs = 0)

/-- R327, R392, R411 and R415. -/
def Obligations.PowerOnAndDeviceReset : Prop :=
  ∀ (s : State),
    (∀ held, held < 1000 → exec (.porNAssert held) s = .next s) ∧
    (∀ held, 1000 ≤ held → ∃ t, exec (.porNAssert held) s = .next t ∧ (∀ off, t.reg off = Reg.resetValue off) ∧
      t.sem = [] ∧ t.mbx = [] ∧ t.sess = [] ∧ t.qs = State.reset.qs ∧ t.flows = [] ∧ t.bpm = State.reset.bpm ∧
      t.sec.slots = [] ∧ t.sec.fuses = s.sec.fuses ∧ t.clk.alive = false ∧
      (s.sec.write = none → t.sec.flash = s.sec.flash)) ∧
    (s.clk.alive = false → ∀ refs smb tm,
      ∃ t, exec (.porNDeassert refs smb tm) s = .next t ∧ t.clk.alive = true ∧ t.now = 0 ∧ t.board.smbAddr = smb ∧
        (refs.getLsbD 0 → t.refOf 0 = 0 ∧ (refs.getLsbD 1 → t.refOf 1 = 1) ∧
          (refs.getLsbD 1 = false → refs.getLsbD 2 → t.refOf 1 = 2)) ∧
        (refs.getLsbD 0 = false → refs.getLsbD 1 → t.refOf 0 = 1 ∧ (refs.getLsbD 2 → t.refOf 1 = 2)) ∧
        (refs = 2 → t.refOf 1 = 1) ∧ (refs = 4 → t.refOf 0 = 2 ∧ t.refOf 1 = 2) ∧
        (∀ n : Fin 2, t.portInReset n.val = (s.port n.val).perst)) ∧
    (∀ n : Fin 2, (s.port n.val).perst = true → s.clk.alive →
      ∃ t, exec (.perstDeassert n) s = .next t ∧ (t.port n.val).perst = false ∧ (t.port n.val).crs = true ∧
        (t.port n.val).releasedAt = s.time.raw ∧ t.portInReset n.val = false ∧
        t.regB (Reg.wakeCtrl n.val) 29 = false ∧ t = { s with ports := t.ports, regs := t.regs }) ∧
    (∀ n : Fin 2, if s.clk.alive ∧ (s.port n.val).perst = false ∧ (s.port n.val).releasedAt + 2000000 ≤ s.time.raw ∧
          2 ≤ s.stage then
        exec (.crsEnd n) s = .next (s.setPort n.val { s.port n.val with crs := false })
      else exec (.crsEnd n) s = .next s) ∧
    (∀ (a : Agent) (v : Word), s.live a → s.admits a Reg.devCtrl → s.holds0 a → bit v 31 →
      ∃ t, exec (.reset a v) s = .next t ∧ t.now = s.now ∧ t.ports = s.ports ∧ t.sec.fuses = s.sec.fuses ∧
        (∀ g : Fin 24, t.reg (Reg.sgStatus g.val) = s.reg (Reg.sgStatus g.val)) ∧
        t.reg Reg.headSeq = s.reg Reg.headSeq ∧
        (∀ k h, s.fc.hist.find k = some h → t.fc.hist.find k = some { h with acked := true }) ∧
        t.sem = [] ∧ t.mbx = [] ∧ t.sess = [] ∧ t.qs = State.reset.qs ∧ t.sec.slots = [] ∧
        t.ready = false ∧ t.semTie = 0 ∧ t.stage = 2)

/-- R413 and R414. -/
def Obligations.EngineEnable : Prop :=
  ∀ (s : State),
    (∀ (a : Agent), s.live a → s.admits a Reg.devCtrl → s.holds0 a → s.regB Reg.devCtrl 0 = false →
      ∃ t, exec (.engineEnSet a 1) s = .next t ∧ t.regB Reg.devCtrl 0 = true ∧ t.clk = { s.clk with checking := true } ∧
        (∀ o, o ≠ Reg.devCtrl → t.reg o = s.reg o) ∧ t = { s with regs := t.regs, clk := t.clk }) ∧
    (∀ (a : Agent), s.live a → s.admits a Reg.devCtrl → s.holds0 a = false → s.reg Reg.devCtrl = 0 →
      exec (.engineEnSet a 1) s = .next (s.protoEventA a Reg.devCtrl)) ∧
    (s.clk.checking = true → s.inGf = false →
      let subsOk := ∀ e ∈ s.qs.tbl, e.2.en = true → e.2.ty = 1 → s.cqOk e.2.defaultCq e.2.fid = true
      let memOk := ∀ e ∈ s.qs.tbl, ¬(e.2.en = true ∧ e.2.ty ≠ 0 ∧ e.2.mem = true)
      let layoutOk := ((List.range 8).map s.poolCount).foldl (· + ·) 0 ≤ 131072 ∧ s.poolsEnd ≤ 0xC00000000
      ∃ t, exec .deviceLevelCheck s = .next t ∧ t.clk = { s.clk with checking := false } ∧
        (layoutOk → subsOk → memOk →
          t.engineOn = true ∧ t.regB Reg.devCtrl 0 = s.regB Reg.devCtrl 0 ∧ t.bpm.live = true ∧ t.bpm.bufs = [] ∧
          ∀ p, t.pool p = { Pool.reset with rrNext := (s.pool p).rrNext }) ∧
        (¬(layoutOk ∧ subsOk ∧ memOk) → t.regB Reg.devCtrl 0 = false ∧ t.engineOn = s.engineOn ∧ t.bpm = s.bpm) ∧
        (¬layoutOk → t.regF Reg.devStatus 0 16 = 0x0808) ∧
        (layoutOk → ¬subsOk → t.regF Reg.devStatus 0 16 = 0x0702) ∧
        (layoutOk → subsOk → ¬memOk → t.regF Reg.devStatus 0 16 = 0x0303) ∧
        t = { s with regs := t.regs, clk := t.clk, bpm := t.bpm }) ∧
    (∀ (a : Agent), s.live a → s.admits a Reg.devCtrl → s.holds0 a → s.regB Reg.devCtrl 0 = true →
      if (∀ e ∈ s.sess, e.2.en = false) ∧ (∀ e ∈ s.dma, e.2.state ≠ 1 ∧ e.2.state ≠ 2) ∧
          (∀ e ∈ s.bpm.bufs, e.2.state = 0) then
        ∃ t, exec (.engineEnClear a 0) s = .next t ∧ t.regB Reg.devCtrl 0 = false ∧ t.engineOn = false ∧
          t.bpm = { s.bpm with live := false } ∧ (∀ o, o ≠ Reg.devCtrl → o ≠ Reg.devStatus → t.reg o = s.reg o) ∧
          t = { s with regs := t.regs, clk := t.clk, bpm := t.bpm }
      else exec (.engineEnClear a 0) s = .next (s.protoEventA a Reg.devCtrl))

/-- R409's stages and R358. -/
def Obligations.StartupStages : Prop :=
  ∀ (s : State),
    (s.clk.alive → s.stage = 0 → s.clk.testMode = false → s.refPresent (s.refOf 0) →
      ∃ t, exec .rootLock s = .next t ∧ t.activePll = 0 ∧ t.pllLocked 0 = true ∧ t.stage = 1 ∧
        (∀ o, o ≠ Reg.pllStatus → o ≠ Reg.devStatus → t.reg o = s.reg o) ∧ t = { s with regs := t.regs, clk := t.clk }) ∧
    (s.clk.alive → s.stage = 1 →
      ∃ t, exec .fuseSense s = .next t ∧ t.stage = 2 ∧ t.regB Reg.fuseStatus 31 = true ∧
        t.reg Reg.locks = s.arrayWord 50 &&& 0xF8000000 ∧ t.reg Reg.portRights = s.arrayWord 51 &&& 0x77 ∧
        t.reg Reg.part = s.arrayWord 53 ∧ t.reg (Reg.serial 0) = s.arrayWord 54 ∧
        (∀ i, i < 64 → bit (s.arrayWord (48 + i / 32)) (i % 32) = false →
          (∀ j, j < i → bit (s.arrayWord (48 + j / 32)) (j % 32) = true) → t.arbCount = i) ∧
        (∀ w, t.fuse w = if 62 ≤ w ∧ w ≤ 77 then 0 else s.arrayWord w) ∧
        t.sec = { s.sec with shadow := t.sec.shadow } ∧ t.span.mapEnc = t.firstMap .enc ∧ t.span.mapDec = t.firstMap .dec) ∧
    (s.clk.alive → s.stage = 2 →
      let b1 := s.bank s.activeB
      let b2 := s.bank !s.activeB
      ∃ t, exec .bankSelection s = .next t ∧
        (s.judge b1 = 1 → t.sec.running = b1 ∧ t.reg Reg.fwVersion = loW (fwVer b1) ∧
          t.regB Reg.bootStatus 31 = s.activeB ∧ t.regB Reg.bootStatus 30 = false ∧ t.regF Reg.concStatus 28 4 = 5 ∧
          t.stage = if s.clk.restart then 4 else 3) ∧
        (s.judge b1 ≠ 1 → s.judge b2 = 1 → t.sec.running = b2 ∧ t.reg Reg.fwVersion = loW (fwVer b2) ∧
          t.regB Reg.bootStatus 31 = !s.activeB ∧ t.regB Reg.bootStatus 30 = true ∧ t.regF Reg.concStatus 28 4 = 5 ∧
          t.stage = if s.clk.restart then 4 else 3) ∧
        (s.judge b1 ≠ 1 → s.judge b2 ≠ 1 → t.inGf = true ∧ t.stage = 7 ∧ t.ready = true ∧ t.sec.running = [])) ∧
    (s.clk.alive → s.stage = 3 →
      ∃ t, exec .hbmTraining s = .next t ∧ t.stage = 4 ∧ (∀ g : Fin 24, t.reg (Reg.sgStatus g.val) = Reg.sgReset g.val) ∧
        (∀ n : Fin 4, t.asleep n.val = false → t.refreshing n.val = true) ∧
        t = { s with regs := t.regs, mc := t.mc, clk := t.clk }) ∧
    (s.clk.alive → s.stage = 4 →
      ∃ t, exec (.spanSelfTestStartup 0 0 true) s = .next t ∧ t.stage = 5 ∧ t.ready = true ∧
        (∀ a, t.mem.read a = 0) ∧ t.span.mapEnc = s.firstMap .enc ∧ t.span.mapDec = s.firstMap .dec ∧
        t.reg Reg.secSelftest = 1 ∧ t.clk.fuseBlowDue = true ∧
        t.regB Reg.fuseStatus 29 = (t.advances || t.revokes)) ∧
    (s.ready → s.clk.fuseBlowDue → ∀ ok,
      let h := s.sec.running
      let adv := h ≠ [] ∧ fwAdvance h = true ∧ s.arbCount < fwSvn h
      let rev := h ≠ [] ∧ fwRevoke h = true ∧ s.regB Reg.bootStatus 29 = true
      ∃ t, exec (.fuseBlow ok) s = .next t ∧ t.clk.fuseBlowDue = false ∧
        t.regB Reg.fuseStatus 29 = false ∧ t.sec.shadow = s.sec.shadow ∧
        (∀ w i, bit (s.arrayWord w) i → bit (t.arrayWord w) i) ∧
        (∀ w, w ≠ 48 → w ≠ 49 → w ≠ 50 → t.arrayWord w = s.arrayWord w) ∧
        (ok = true →
          (∀ i, i < 64 → (bit (t.arrayWord (48 + i / 32)) (i % 32) ↔
            bit (s.arrayWord (48 + i / 32)) (i % 32) ∨ (adv ∧ s.arbCount ≤ i ∧ i < fwSvn h))) ∧
          t.arrayWord 50 = (if rev then s.arrayWord 50 ||| 0x40000000 else s.arrayWord 50))) ∧
    (s.stage ≠ 0 → exec .rootLock s = .next s) ∧ (s.stage ≠ 1 → exec .fuseSense s = .next s) ∧
    (s.stage ≠ 2 → exec .bankSelection s = .next s) ∧ (s.stage ≠ 3 → exec .hbmTraining s = .next s) ∧
    (s.stage ≠ 4 → ∀ e d p, exec (.spanSelfTestStartup e d p) s = .next s) ∧
    (s.clk.fuseBlowDue = false → ∀ ok, exec (.fuseBlow ok) s = .next s)

/-- R394, R395, R396 and the relock of R394's last sentence. -/
def Obligations.ClockRoot : Prop :=
  ∀ (s : State),
    (∀ (a : Agent) (v : Word), s.live a → s.admits a Reg.rootCtrl → bit v 31 →
      let q := 1 - s.activePll
      if s.holds0 a ∧ s.pllLocked q ∧ s.pllWithdrawn q = false then
        ∃ t, exec (.switch a v) s = .next t ∧ t.activePll = q ∧ t.pllLocked q ∧
          t.pllLocked s.activePll = s.pllLocked s.activePll ∧
          t.regF Reg.pllStatus 0 16 = min (s.regF Reg.pllStatus 0 16 + 1) 0xFFFF ∧
          (∀ o, o ≠ Reg.pllStatus → t.reg o = s.reg o) ∧ t = { s with regs := t.regs }
      else exec (.switch a v) s = .next (s.protoEventA a Reg.rootCtrl)) ∧
    (∀ (p : Fin 2) (a : Agent) (v : Word), s.live a → s.admits a (Reg.pllCtrl p.val) → s.holds0 a →
      if p.val = s.activePll then exec (.refSel p a v) s = .next (s.protoEventA a (Reg.pllCtrl p.val))
      else if fld v 0 2 = 3 ∨ fld v 0 2 = s.refOf p.val then exec (.refSel p a v) s = .next s
      else ∃ t, exec (.refSel p a v) s = .next t ∧ t.refOf p.val = fld v 0 2 ∧ t.pllLocked p.val = false ∧
        t.activePll = s.activePll ∧ t.pllLocked s.activePll = s.pllLocked s.activePll ∧
        (∀ o, o ≠ Reg.pllStatus → o ≠ Reg.pllCtrl p.val → t.reg o = s.reg o) ∧ t = { s with regs := t.regs }) ∧
    (∀ missing, s.pllLocked s.activePll →
      let p := s.activePll
      let lost := if missing then some (s.refOf p) else none
      let good := s.pllLocked (1 - p) ∧ s.pllWithdrawn (1 - p) = false ∧ lost ≠ some (s.refOf (1 - p))
      let r := Report.of (0x0C00 + p) 0x0C01
      ∃ u : State, u.pllLocked p = false ∧ u.now = s.now ∧ (good → u.activePll = 1 - p ∧ u.pllLocked (1 - p)) ∧
        (¬good → u.activePll = p) ∧ u = { s with regs := u.regs } ∧
        exec (.referenceLoss missing) s =
          .next (if good then
              if s.plannedLoss lost then u
              else if u.classOf r = 1 then (u.report r).st.setRegB Reg.pllStatus (28 - p) true
              else (u.report r).st
            else (u.report (Report.of (0x0C00 + p) 0x0C02)).st)) ∧
    (∀ missing, s.pllLocked s.activePll = false → exec (.referenceLoss missing) s = .next s) ∧
    (∀ p : Fin 2, s.clk.alive → s.stage ≠ 0 → s.pllLocked p.val = false →
      ∃ t, exec (.pllRelock p) s = .next t ∧ t.pllLocked p.val ∧ t.activePll = s.activePll ∧
        t.pllLocked (1 - p.val) = s.pllLocked (1 - p.val) ∧ t = { s with regs := t.regs, free := t.free })

/-- What one poll of the regulators shows (R407, R408). -/
def Obligations.polled (r : List (Option PmbReading)) (s t : State) : Prop :=
  (∀ n : Fin 4, s.regB Reg.pmbCfg n.val = false →
    t.reg (Reg.pmbStatus n.val) = s.reg (Reg.pmbStatus n.val) ∧ t.clk.noAck.get n.val 0 = s.clk.noAck.get n.val 0) ∧
  (∀ n : Fin 4, s.regB Reg.pmbCfg n.val → ∀ h : n.val < r.length,
    match r[n.val] with
    | none => t.regB (Reg.pmbStatus n.val) 31 = true ∧ t.clk.noAck.get n.val 0 = s.clk.noAck.get n.val 0 + 1
    | some x => t.regB (Reg.pmbStatus n.val) 31 = false ∧ t.clk.noAck.get n.val 0 = 0 ∧
        t.regF (Reg.pmbStatus n.val) 0 16 = x.statusWord.toNat ∧ t.reg (Reg.pmbVout n.val) = loW x.vout.toNat ∧
        (x.warning = true → t.regB (Reg.pmbStatus n.val) 30 = true))

/-- R398, R399, R403, R405 to R408; `tj`, `r` and `mean` are what the sensors, regulators and power estimate gave. -/
def Obligations.StepsAndLimits : Prop :=
  ∀ (s : State), s.clk.alive →
    (∀ mean, let cap := s.regF Reg.power 16 16
      let k := s.capStep
      let gain := if k = 1 then 496 else 400
      let (k1, u1) :=
        if cap < mean then (min (k + 1) 2, 0)
        else if 0 < k ∧ mean + gain ≤ cap then (if s.clk.up + 1 = 10 then (k - 1, 0) else (k, s.clk.up + 1))
        else (k, 0)
      (s.now / 100000 ≤ s.clk.loopK → exec (.powerCapLoop mean) s = .next s) ∧
      (s.clk.loopK < s.now / 100000 → ∃ t, exec (.powerCapLoop mean) s = .next t ∧ t.capStep = k1 ∧ t.clk.up = u1 ∧
        (t.regB Reg.pwrStatus 25 ↔ k1 = 2 ∧ cap < mean) ∧
        t.thermStep = (if s.thermStep ≠ 0 ∧ 10 ≤ s.clk.cool then s.thermStep - 1 else s.thermStep) ∧
        t.clk.loopK = s.now / 100000 ∧ (∀ o, o ≠ Reg.pwrStatus → t.reg o = s.reg o) ∧
        t = { s with regs := t.regs, clk := t.clk, ic := t.ic, board := t.board, fresh := t.fresh, freshAt := t.freshAt })) ∧
    (∀ tj : List (BitVec 8), tj.length ≠ 24 → exec (.thermalSample tj) s = .fault .noSuchInstance) ∧
    (∀ tj : List (BitVec 8), tj.length = 24 →
      let hot := hottest tj
      let due := ∀ w, s.clk.lastRaise = some w → w + 100000 ≤ s.now
      ((∃ w, s.clk.lastSample = some w ∧ s.now < w + 1000) → exec (.thermalSample tj) s = .next s) ∧
      ((∀ w, s.clk.lastSample = some w → w + 1000 ≤ s.now) →
       ∃ t, exec (.thermalSample tj) s = .next t ∧ t.clk.lastSample = some s.now ∧ t.thermStep = (if 105 ≤ hot ∧ due ∧ s.thermStep < 2 then s.thermStep + 1 else s.thermStep) ∧
        (105 ≤ hot → due → s.thermStep < 2 → t.regB Reg.pwrStatus 24 = true ∧ t.clk.lastRaise = some s.now) ∧
        (BitVec.ofNat 8 (t.regF Reg.therm 24 8)).toInt = hot ∧
        (120 ≤ hot → s.clk.hot120 → t.board.thermTrip = true ∧ (s.board.thermTrip = false → s.fc.groundFloor = false → t.inGf = true)))) ∧
    (∀ ok, let k := s.wantStep
      let mv := (clampI 650 850 ((stepVolts k : Int) + 5 * s.trim)).toNat
      let set := ∃ w, s.clk.volts = some (k, w)
      let confirmed := ∃ w, s.clk.volts = some (k, w) ∧ (ok = true ∨ w + 20000 ≤ s.now)
      let waits := k < s.clk.cclk ∧ s.regB Reg.pmbCfg 0 = true ∧ ¬confirmed
      (k = s.clk.cclk → exec (.cclkStepChange ok) s = .next s) ∧
      (waits → set → exec (.cclkStepChange ok) s = .next s) ∧
      (waits → ¬set → exec (.cclkStepChange ok) s =
        .next { s with clk := { s.clk with vcore := mv, volts := some (k, s.now) }, out := s.out ++ [.voutCommand mv] }) ∧
      (k ≠ s.clk.cclk → ¬waits → ∃ t, exec (.cclkStepChange ok) s = .next t ∧ t.clk.cclk = k ∧ t.regF Reg.pwrStatus 30 2 = k ∧
        t.clk.volts = none ∧ (s.regB Reg.pmbCfg 0 = false ∨ k < s.clk.cclk → t.clk.vcore = s.clk.vcore ∧ t.out = s.out) ∧
        (s.regB Reg.pmbCfg 0 = true → s.clk.cclk < k → t.clk.vcore = mv ∧ t.out = s.out ++ [.voutCommand mv]) ∧
        t.mem = s.mem ∧ t.qs = s.qs)) ∧
    (∀ steps : Fin 21, let k := (s.clk.volts.map (·.1)).getD s.clk.cclk
      let mv : Int := (stepVolts k : Int) + 5 * ((steps.val : Int) - 10)
      if s.regB Reg.pmbCfg 0 ∧ 650 ≤ mv ∧ mv ≤ 850 then
        ∃ t, exec (.vddCoreTrim steps) s = .next t ∧ (t.clk.vcore : Int) = mv ∧ t.trim = (steps.val : Int) - 10 ∧
          t.out = s.out ++ [.voutCommand mv.toNat] ∧ (∀ o, o ≠ Reg.vtrim → t.reg o = s.reg o) ∧
          t = { s with regs := t.regs, clk := t.clk, out := t.out }
      else exec (.vddCoreTrim steps) s = .next s) ∧
    (∀ r : List (Option PmbReading), r.length ≠ 4 →
      exec (.pmbusPoll r) s = .fault .noSuchInstance ∧ exec (.pmbAlert r) s = .fault .noSuchInstance) ∧
    (∀ r : List (Option PmbReading), r.length = 4 →
      (∃ t, exec (.pmbAlert r) s = .next t ∧ Obligations.polled r s t) ∧
      ((∀ w, s.clk.lastPoll = some w → w + 10000000 ≤ s.now) →
        ∃ t, exec (.pmbusPoll r) s = .next t ∧ t.clk.lastPoll = some s.now ∧ Obligations.polled r s t) ∧
      ((∃ w, s.clk.lastPoll = some w ∧ s.now < w + 10000000) → exec (.pmbusPoll r) s = .next s))

/-- R271, R272, R400, R401 and R402. -/
def Obligations.DeepIdle : Prop :=
  ∀ (s : State),
    (∀ (k : SpanKind) (l : Fin 16) (p : Nat), s.clk.alive → s.physOf k l.val = some p → p < 18 →
      (s.spanNeeded k l.val = false → s.inTest k p = false → s.replayDue k 0 l.val = false →
        ∃ t, exec (.spanPowerGate (.span k l)) s = .next t ∧ t.regB (Reg.gated (kindIx k)) p = true ∧
          t = { s with regs := t.regs, clk := t.clk }) ∧
      (s.spanNeeded k l.val = true → exec (.spanPowerGate (.span k l)) s = .next s) ∧
      ((∃ e ∈ s.admittedOf k none, ∃ lg i, e.2.home = some (lg, i) ∧ l.val ∈ groupIdx lg i) →
        ∃ t, exec (.unitWake (.span k l)) s = .next t ∧ t.regB (Reg.gated (kindIx k)) p = false ∧
          t = { s with regs := t.regs, clk := t.clk })) ∧
    (∀ n : Fin 4, s.clk.alive →
      (s.pairBound n.val = false → s.vbFrames n.val = [] →
        (∃ t, exec (.spanPowerGate (.vestibule n)) s = .next t ∧ n.val ∈ t.span.gatedVb ∧
          t = { s with regs := t.regs, clk := t.clk, span := { s.span with gatedVb := t.span.gatedVb } }) ∧
        ∃ t, exec (.spanPowerGate (.mezzanine n)) s = .next t ∧ n.val ∈ t.span.gatedMz ∧
          t = { s with regs := t.regs, clk := t.clk, span := { s.span with gatedMz := t.span.gatedMz } }) ∧
      (s.pairBound n.val = true →
        exec (.spanPowerGate (.vestibule n)) s = .next s ∧ exec (.spanPowerGate (.mezzanine n)) s = .next s ∧
        (∃ t, exec (.unitWake (.vestibule n)) s = .next t ∧ n.val ∉ t.span.gatedVb ∧
          t = { s with regs := t.regs, clk := t.clk, span := { s.span with gatedVb := t.span.gatedVb } }) ∧
        ∃ t, exec (.unitWake (.mezzanine n)) s = .next t ∧ n.val ∉ t.span.gatedMz ∧
          t = { s with regs := t.regs, clk := t.clk, span := { s.span with gatedMz := t.span.gatedMz } })) ∧
    (∀ n : Fin 4,
      (if s.deepReady ∧ s.canSleep n.val then
        ∃ t, exec (.selfRefreshEntry n) s = .next t ∧ t.asleep n.val = true ∧
          (∀ m : Fin 4, m ≠ n → t.asleep m.val = s.asleep m.val) ∧
          (∀ (pc : Fin 128) (b : Fin 32), pc.val / 32 = n.val → t.debt pc.val b.val = 0) ∧
          t = { s with regs := t.regs, mc := t.mc }
      else exec (.selfRefreshEntry n) s = .next s) ∧
      (if s.asleep n.val then
        ∃ t, exec (.selfRefreshExit n) s = .next t ∧ t.asleep n.val = false ∧
          (∀ m : Fin 4, m ≠ n → t.asleep m.val = s.asleep m.val) ∧
          (∀ (pc : Fin 128) (b : Fin 32), pc.val / 32 = n.val → t.debt pc.val b.val = 0) ∧
          t = { s with regs := t.regs, mc := t.mc }
      else exec (.selfRefreshExit n) s = .next s)) ∧
    (if s.deepReady ∧ ∀ n : Fin 4, s.asleep n.val ∨ s.canSleep n.val then
      ∃ t, exec .deepIdleEntry s = .next t ∧ t.clk.inDeep = true ∧ t.ic.gated = true ∧ (∀ n : Fin 4, t.asleep n.val = true) ∧
        t.regF Reg.pwrStatus 22 2 = 2 ∧ t.reg Reg.pllStatus = s.reg Reg.pllStatus ∧
        t = { s with regs := t.regs, mc := t.mc, ic := { s.ic with gated := true }, clk := { s.clk with inDeep := true } }
    else exec .deepIdleEntry s = .next s) ∧
    (∀ cause, if s.clk.inDeep ∧ s.endsDeep cause then
      ∃ t, exec (.deepIdleExit cause) s = .next t ∧ t.clk.inDeep = false ∧ (∀ n : Fin 4, t.asleep n.val = false) ∧
        t.regF Reg.pwrStatus 22 2 = 1 ∧ t.reg Reg.pllStatus = s.reg Reg.pllStatus ∧
        (∀ f, cause = .toD0 f → (t.fn f.val).d3hot = false ∧ t.out = s.out ++ [.configDone f.val]) ∧
        (∀ f, cause = .toD0 f → s.ic.gated = true → t.ic = { s.ic with returned := s.ic.returned ++ [f.val] }) ∧
        ((∀ f, cause ≠ .toD0 f) → t.fns = s.fns ∧ t.out = s.out ∧ t.ic = s.ic) ∧
        t = { s with regs := t.regs, mc := t.mc, fns := t.fns, out := t.out, ic := t.ic,
                     clk := { s.clk with inDeep := false, quietSince := s.now } }
    else exec (.deepIdleExit cause) s = .next s)

/-- R41, R292, R368, R369 and R436. -/
def Obligations.LinksAndBuses : Prop :=
  ∀ (s : State) (n : Fin 2), s.clk.alive →
    (∀ (speed : Fin 7) (width : Fin 17) (flit : Bool), (s.port n.val).perst = false →
      let st := Reg.portStatus n.val
      if linkOkAt speed.val width.val flit then
        ∃ t, exec (.linkUp n speed width flit) s = .next t ∧ t.regF st 16 4 = speed.val ∧ t.regF st 10 6 = width.val ∧
          t.regB st 9 = flit ∧ t.regF st 0 3 = 0 ∧ t.portInReset n.val = false ∧ (∀ o, o ≠ st → t.reg o = s.reg o) ∧
          t = { s with regs := t.regs }
      else exec (.linkUp n speed width flit) s = .next s) ∧
    (∀ pm : Fin 5, s.regF (Reg.portStatus n.val) 16 4 ≠ 0 →
      ∃ t, exec (.linkPmTransition n pm) s = .next t ∧ t.regF (Reg.portStatus n.val) 0 3 = pm.val ∧
        t.portInReset n.val = s.portInReset n.val ∧ (∀ o, o ≠ Reg.portStatus n.val → t.reg o = s.reg o) ∧
        t = { s with regs := t.regs }) ∧
    (∀ v : Fin 64, s.fnLive (64 * n.val) → (s.port n.val).numVfs = 0 →
      ∃ t, exec (.vfEnableSet n v) s = .next t ∧
        (∀ f : Fin 128, isPf f.val = false → portOf f.val = n.val → (t.fnExists f.val ↔ f.val % 64 ≤ v.val)) ∧
        (∀ f : Fin 128, portOf f.val ≠ n.val → t.fnExists f.val = s.fnExists f.val) ∧ t = { s with ports := t.ports }) ∧
    (∀ auth, s.portInReset n.val = false → (s.port n.val).crs = false →
      ∃ t, exec (.spdmMessage n auth) s = .next t ∧ t.out = s.out ++ [.spdm n.val auth] ∧
        (auth = true → (t.port n.val).spdmSecured = true) ∧ t = { s with ports := t.ports, out := t.out }) ∧
    (∀ (k : Fin 4) (covers : List IdeUse), s.portInReset n.val = false → (s.port n.val).crs = false →
      if (s.port n.val).spdmSecured then
        ∃ t, exec (.ideKm n ⟨k, covers⟩) s = .next t ∧ (t.port n.val).ideKeys.find k.val = some covers ∧
          (t.port n.val).insecure.find k.val = none ∧
          t.regB (Reg.ideStatus n.val) k.val = true ∧ t.regB (Reg.ideStatus n.val) (4 + k.val) = false ∧
          (∀ o, o ≠ Reg.ideStatus n.val → t.reg o = s.reg o) ∧ t = { s with ports := t.ports, regs := t.regs }
      else exec (.ideKm n ⟨k, covers⟩) s = .next s) ∧
    (∀ k : Fin 4, s.regB (Reg.ideStatus n.val) k.val →
      ∃ u : State, (u.port n.val).ideKeys.find k.val = none ∧
        (∀ x, x ∈ (s.port n.val).ideKeys.get k.val [] → u.ideDrops n.val x = true) ∧ u.regB (Reg.ideStatus n.val) k.val = false ∧
        u.regB (Reg.ideStatus n.val) (4 + k.val) = true ∧ u = { s with ports := u.ports, regs := u.regs } ∧
        exec (.ideCheckFailed n k) s = .next ((u.emit (.ideCheckFailed n.val k.val)).protoEvent (64 * n.val) 0)) ∧
    exec (.jtagAccess .idcode) s = .next (s.emit (.jtag true)) ∧ exec (.jtagAccess .bypass) s = .next (s.emit (.jtag false)) ∧
    (∀ ir, exec (.jtagAccess (.other ir)) s =
      if bit (if s.regB Reg.fuseStatus 31 then s.fuse 50 else s.arrayWord 50) 31 then .next s else .refused .jtagOpenPart) ∧
    exec .pldmType2Request s =
      .next (s.emit (.pldm 2 [s.reg Reg.pwrStatus, s.reg Reg.power, s.reg Reg.therm])) ∧
    exec .alertResponseRead s =
      .next (if s.regB Reg.pwrStatus 24 ∨ s.regB Reg.fcStatus 30 then s
        else { s with board := { s.board with smbAlert := false } }) ∧
    exec .smbusStuckBus s = .next (s.emit .smbReset) ∧
    (∀ image, s.ready → s.fc.gfDead = false → s.inGf = false → s.clk.inDeep = false →
      (s.right n.val 0 = false → exec (.pldmType5Request n image) s = .next (s.emit (.pldm 5 [0x16, 0]))) ∧
      (s.right n.val 0 → 4096 ≤ image.length → image.length ≤ 8388608 → s.judgeRefuse image = none → s.sec.write = none →
        ∃ t, exec (.pldmType5Request n image) s = .next t ∧
          t.sec = { s.sec with write := some { packet := none, mbx := none, image, fid := 64 * n.val, pins := [] } } ∧
          t.reg Reg.fwWrite = 0x80000000 ∧ (∀ o, o ≠ Reg.fwWrite → t.reg o = s.reg o) ∧
          t = { s with sec := t.sec, regs := t.regs }))

/-- R283 for a line that decodes clean, and the first flush moment of R268. -/
def Obligations.MemoryGrant : Prop :=
  ∀ (g : Fin 24) (s : State) (waiting : List MemReq),
    let s0 := s.flushExpired (stackOf g.val)
    let w := waiting.filter fun r => s0.reqValid g.val r
    (s.cyc < s.mc.grantEnd.get g.val 0 → exec (.memoryArbiterDecision g waiting .clean) s = .next s) ∧
    (s.asleep (stackOf g.val) = true → s.mc.grantEnd.get g.val 0 ≤ s.cyc →
      if w = [] then exec (.memoryArbiterDecision g waiting .clean) s = .next s
      else
        ∃ t, exec (.memoryArbiterDecision g waiting .clean) s = .next t ∧ t.asleep (stackOf g.val) = false ∧
          (∀ o, o ≠ Reg.stackStatus (stackOf g.val) → t.reg o = s.reg o) ∧
          t = { s with regs := t.regs, mc := { s.mc with paid := t.mc.paid, refreshBase := t.mc.refreshBase } }) ∧
    (s.asleep (stackOf g.val) = false → s.mc.grantEnd.get g.val 0 ≤ s.cyc →
      let st (r : MemReq) := s0.starveOf g.val r.id.val
      let prio (r : MemReq) := s0.reqPrio r.id.val
      let limit := max 1 (s.regF Reg.mcArbCfg 0 8)
      (w = [] → exec (.memoryArbiterDecision g waiting .clean) s = .next s0) ∧
      (w ≠ [] → ∃ x ∈ w, ∃ t, exec (.memoryArbiterDecision g waiting .clean) s = .next t ∧
        t.starveOf g.val x.id.val = 0 ∧
        (∀ r ∈ w, r.id ≠ x.id → t.starveOf g.val r.id.val = st r + 1) ∧
        (if ∃ r ∈ w, r.id.val = 50 ∧ 7 ≤ st r then x.id.val = 50
         else if ∃ r ∈ w, limit ≤ st r then
           ∀ r ∈ w, limit ≤ st r → st r < st x ∨ (st r = st x ∧ x.id ≤ r.id)
         else ∀ r ∈ w, prio r < prio x ∨ (prio r = prio x ∧ (st r < st x ∨ (st r = st x ∧ x.id ≤ r.id)))) ∧
        (∃ r ∈ w, r.id = x.id ∧ t.mc.grantEnd.get g.val 0 = s.cyc + (if 50 ≤ r.id.val then 8 else (r.bytes + 127) / 128)) ∧
        (∀ a, t.mem.read a = s.mem.read a) ∧
        t = { s with regs := t.regs, mc := t.mc, mem := t.mem, ic := t.ic, fresh := t.fresh, freshAt := t.freshAt })) ∧
    (∀ (n : Fin 4) (c : Combine), c ∈ s.mc.combine → c.stack = n.val →
      (∀ d ∈ s.mc.combine, d.stack = n.val → d.stripe = c.stripe → d = c) →
      if c.opened + 64 ≤ s.cyc then
        ∃ t, exec (.combiningFlush n c.stripe) s = .next t ∧
          (∀ d ∈ s.mc.combine, d ≠ c → d ∈ t.mc.combine) ∧ c ∉ t.mc.combine ∧
          (∀ a, t.mem.read a = s.mem.read a) ∧
          (c.mask = 2 ^ 1024 - 1 → ∀ a, a / 1024 = c.stripe → t.mem.isPoisoned a = false) ∧
          t = { s with regs := t.regs, mem := t.mem, mc := { s.mc with combine := t.mc.combine } }
      else exec (.combiningFlush n c.stripe) s = .next s)

/-- Bytes of its stripe that a request reads: rebuild and scrub read it whole (R270, R277). -/
def Clause.touched (r : MemReq) : Nat := if 50 ≤ r.id.val then 1024 else r.bytes

/-- R273, R275, Table 12-7, R279 and R212. -/
def Obligations.GroupStates : Prop :=
  ∀ (g : Fin 24) (s : State),
    let s0 := s.flushExpired (stackOf g.val)
    (∀ o, s.sgState g.val ≠ 1 → exec (.diagnosisEnd g o) s = .next s) ∧
    (s.sgState g.val = 1 →
      (∀ o, o = .clean ∨ o = .rewritten →
        ∃ t, exec (.diagnosisEnd g o) s = .next t ∧ t.sgState g.val = 0 ∧ t.memberOut g.val = 7 ∧
          (∀ h : Fin 24, h ≠ g → t.reg (Reg.sgStatus h.val) = s.reg (Reg.sgStatus h.val)) ∧
          t = { s with regs := t.regs, mc := t.mc, fc := t.fc }) ∧
      (∀ o, o = .rowFault ∨ o = .memberFault →
        ∃ t, exec (.diagnosisEnd g o) s = .next t ∧ t.memberOut g.val = s.memberOut g.val ∧ t.mem = s.mem ∧
          (∀ h : Fin 24, h ≠ g → t.reg (Reg.sgStatus h.val) = s.reg (Reg.sgStatus h.val)) ∧
          (0 < s.sparesOf (stackOf g.val) → s.memberOut g.val < 5 →
            t.sgState g.val = 2 ∧ t.pointer g.val = 0 ∧ t.regB (Reg.sgRebuild g.val) 31 = true ∧
            t.sparesOf (stackOf g.val) = s.sparesOf (stackOf g.val) - 1 ∧
            t.memberPc g.val (s.memberOut g.val) = 32 - s.sparesOf (stackOf g.val)) ∧
          (s.sparesOf (stackOf g.val) = 0 → t.sgState g.val = 3 ∧ t.regB Reg.capStatus 1 = true))) ∧
    (∀ (r : MemReq) (m : Fin 5) (l : Fin 4) sev synd, s.sgState g.val = 0 → s.asleep (stackOf g.val) = false →
      s.mc.grantEnd.get g.val 0 ≤ s.cyc → s0.reqValid g.val r →
      touchesLine (s0.reqAddr g.val r) (Clause.touched r) l.val →
      (∀ a, s.escalates (memReport g.val 0x0802 a none) = false) →
      s.mc.freezes.get (32 * stackOf g.val + s.memberPc g.val m.val) 0 + 1 < 8 →
      ∃ t, exec (.memoryArbiterDecision g [r] (.uncorrectable m l sev synd)) s = .next t ∧
        t.sgState g.val = 1 ∧ t.memberOut g.val = m.val ∧ (∀ b, t.mem.read b = s.mem.read b) ∧
        (∀ h : Fin 24, h ≠ g → t.reg (Reg.sgStatus h.val) = s.reg (Reg.sgStatus h.val))) ∧
    (∀ (r : MemReq) (m n : Fin 5) (l k : Fin 4) sev synd, m < n → s.sgState g.val = 0 → s.asleep (stackOf g.val) = false →
      s.mc.grantEnd.get g.val 0 ≤ s.cyc → s0.reqValid g.val r → r.holds = [] → r.id.val < 50 →
      touchesLine r.addr r.bytes l.val → touchesLine r.addr r.bytes k.val → s.twin (memReport g.val 0x0804 0 none) = none →
      (∀ a, s.escalates (memReport g.val 0x0802 a none) = false) →
      s.mc.freezes.get (32 * stackOf g.val + s.memberPc g.val m.val) 0 + 1 < 8 →
      let stripe := s0.reqStripe g.val r
      let a := lineAddr r.addr stripe n.val k.val
      ∃ t, exec (.memoryArbiterDecision g [r] (.twoUncorrectable n k m l sev synd)) s = .next t ∧
        t.sgState g.val = 1 ∧ t.memberOut g.val = m.val ∧
        (∀ d : Fin 4, unitMember stripe d.val = m.val ∨ unitMember stripe d.val = n.val →
          t.mem.isPoisoned (a / 1024 * 1024 + 256 * d.val + a / 64 % 4 * 64)) ∧
        (∀ b, t.mem.read b = s.mem.read b)) ∧
    (∀ (r : MemReq) (m : Fin 5) (l : Fin 4) sev synd (i : Fin 512) (k : Fin 6) (z : Nat), s.sgState g.val = 3 → m.val ≠ s.memberOut g.val →
      s.asleep (stackOf g.val) = false → s.mc.grantEnd.get g.val 0 ≤ s.cyc → s0.reqValid g.val r →
      touchesLine r.addr r.bytes l.val → s.twin (memReport g.val 0x0804 0 none) = none → r.id.val < 50 → s.mc.second.get (g.val * 8 + m.val) 0 ≠ 63 → s.poolsEnd ≤ r.addr / 1024 * 1024 → r.holds = [.picture i k z] →
      s.readersOf i.val k.val z = [] → (∃ y ∈ (s.session i.val).vis.get k.val [], y.slot = z) →
      let x := s.session i.val
      let stripe := s0.reqStripe g.val r
      let a := lineAddr r.addr stripe m.val l.val
      ∃ t, exec (.memoryArbiterDecision g [r] (.uncorrectable m l sev synd)) s = .next t ∧ t.inGf = s.inGf ∧
        t.session i.val = { x with vis := x.vis.put k.val ((x.vis.get k.val []).filter fun y => y.slot != z),
                                   nextIntra := x.nextIntra || x.isEnc } ∧
        (∀ j, j ≠ i.val → t.session j = s.session j) ∧ t.span = s.span ∧
        (∀ d : Fin 4, unitMember stripe d.val = m.val ∨ unitMember stripe d.val = s.memberOut g.val →
          t.mem.isPoisoned (a / 1024 * 1024 + 256 * d.val + a / 64 % 4 * 64)) ∧
        (∀ b, t.mem.read b = s.mem.read b))

/-- R270's refreshes. -/
def Obligations.Refresh : Prop :=
  ∀ (s : State),
    (∀ (pc : Fin 128) (b : Fin 32), let n := pc.val / 32
      (s.refreshing n → s.mc.paid.get (pc.val * 32 + b.val) 0 ≤ s.intervals n + 8 →
        ∃ t, exec (.perBankRefresh pc b) s = .next t ∧ t.debt pc.val b.val = s.debt pc.val b.val - 1 ∧
          (∀ k : Nat, k ≠ pc.val * 32 + b.val → t.mc.paid.get k 0 = s.mc.paid.get k 0) ∧
          (∀ o, o ≠ Reg.postponeMax n → t.reg o = s.reg o) ∧
          t = { s with regs := t.regs, mc := { s.mc with paid := t.mc.paid }, fresh := t.fresh, freshAt := t.freshAt }) ∧
      (s.refreshing n = false ∨ s.intervals n + 8 < s.mc.paid.get (pc.val * 32 + b.val) 0 →
        exec (.perBankRefresh pc b) s = .next s) ∧
      (if s.refreshing n ∧ s.debt pc.val b.val = 8 then
        ∃ t, exec (.forcedRefresh pc b) s = .next t ∧ t.debt pc.val b.val = 7 ∧
          t.regF (Reg.stackStatus n) 0 16 = min (s.regF (Reg.stackStatus n) 0 16 + 1) 0xFFFF ∧
          (∀ o, o ≠ Reg.postponeMax n → o ≠ Reg.stackStatus n → t.reg o = s.reg o) ∧
          t = { s with regs := t.regs, mc := { s.mc with paid := t.mc.paid }, fresh := t.fresh, freshAt := t.freshAt }
      else exec (.forcedRefresh pc b) s = .next s)) ∧
    (∀ (n : Fin 4) (temp : BitVec 8),
      ∃ t, exec (.stackTemperatureChange n temp) s = .next t ∧ t.reg (Reg.hbmTemp n.val) = loW temp.toNat ∧
        (t.regB (Reg.stackStatus n.val) 31 ↔ 85 ≤ temp.toInt) ∧ t.refInterval n.val = (if 85 ≤ temp.toInt then 195 else 390) ∧
        ((s.mc.refreshBase.find n.val).isSome →
          ∀ (pc : Fin 128) (b : Fin 32), pc.val / 32 = n.val → t.debt pc.val b.val = s.debt pc.val b.val) ∧
        (∀ o, o ≠ Reg.hbmTemp n.val → o ≠ Reg.therm → o ≠ Reg.stackStatus n.val → t.reg o = s.reg o) ∧
        t = { s with regs := t.regs, mc := { s.mc with refreshBase := t.mc.refreshBase } })

/-- R265, R267 and the reconstruction of R273. -/
def Obligations.AddressMap : Prop :=
  (∀ amap n, amap < 4 → n < 786432 →
    mapGroup amap n < 24 ∧ mapPage amap n < 32768 ∧ pageOf amap (mapGroup amap n) (mapPage amap n) = n) ∧
  (∀ t d, d < 4 → unitMember t d < 5 ∧ parityMember t < 5 ∧ unitMember t d ≠ parityMember t ∧
    ∀ e, e < 4 → unitMember t d = unitMember t e → d = e) ∧
  (∀ a b c d : List Byte, a.length = 256 → b.length = 256 → c.length = 256 → d.length = 256 →
    rebuildUnit [b, c, d] (parityOf [a, b, c, d]) = a ∧ rebuildUnit [a, c, d] (parityOf [a, b, c, d]) = b ∧
    rebuildUnit [a, b, d] (parityOf [a, b, c, d]) = c ∧ rebuildUnit [a, b, c] (parityOf [a, b, c, d]) = d)

/-- A packet with this opcode runs in context `c`. -/
def Obligations.runs (s : State) (c : Ctx) (opc : Nat) (p : Packet) : Prop :=
  s.packetIn c opc = some p ∧ p.state = .running c

/-- The completion of a packet that is produced while its function can be reached (R62, R69). -/
def Obligations.answerOn (s : State) (p : Packet) (cq status reason : Nat) (vals : List Word) : List Completion :=
  if s.reachable p.fid ∧ p.mute = false then
    [{ cq, status, tag := p.tag, session := if s.namesSession p.opc then p.sessField else 0, reason, time := s.now,
       vals, noIrq := p.noIrq && decide (status ≤ 3), crossedAt := none }]
  else []

/-- The same for the packet's own completion queue. -/
def Obligations.answer (s : State) (p : Packet) (status reason : Nat) (vals : List Word) : List Completion :=
  Obligations.answerOn s p p.cq status reason vals

/-- The pair of context `c` has left it (R333, R341): round robin goes on after it, and context 7 first looks for events. -/
def Obligations.yields (s t : State) (c : Ctx) : Prop :=
  (∀ n, n ≠ c.pair → t.turn n = s.turn n) ∧
  (c.slot ≠ 7 → t.turn c.pair = { cur := none, last := c.slot.val, since := s.cyc, due := true })

/-- A packet of context `c` completes: its completion is held for its queue, it is gone and its context is free; `key` is the
cycle of the last keystone that wrote the Session Table (R95). -/
def Obligations.completesAt (s t : State) (c : Ctx) (p : Packet) (status reason : Nat) (vals : List Word) (key : Option Nat) :
    Prop :=
  t.qs = { s.qs with held := s.qs.held ++ Obligations.answer s p status reason vals,
                     packets := s.qs.packets.filter fun q => q.id != p.id, keyAt := key } ∧
  t.conc = { s.conc with ctxs := s.conc.ctxs.put (ctxKey c) Context.reset, turns := t.conc.turns } ∧ Obligations.yields s t c

/-- The same of a packet that took its effect. -/
def Obligations.completes (s t : State) (c : Ctx) (p : Packet) (status reason : Nat) (vals : List Word) : Prop :=
  Obligations.completesAt s t c p status reason vals (if writesTable p.opc then some s.cyc else s.qs.keyAt)

/-- Every buffer keeps its state, owners and generation; pins may drop. -/
def Obligations.bufsKept (s t : State) : Prop := ∀ k, t.buf k = { s.buf k with pins := (t.buf k).pins }

/-- Only the packet, its completion and its context's pins change. -/
def Obligations.onlyEnds (s t : State) (c : Ctx) (p : Packet) (status reason : Nat) (vals : List Word) : Prop :=
  Obligations.completes s t c p status reason vals ∧ Obligations.bufsKept s t ∧
  t = { s with qs := t.qs, conc := t.conc, bpm := t.bpm }

/-- R82, R382, R404 and the completion of R69. -/
def Obligations.PlainPackets : Prop :=
  ∀ (c : Ctx) (p : Packet) (s : State),
    (Obligations.runs s c 0x00 p → ∃ t, exec (.nop c) s = .next t ∧ Obligations.onlyEnds s t c p 0 0 [0, 0, 0, 0]) ∧
    (Obligations.runs s c 0x01 p →
      ((p.p 0).toNat ≤ 3 → ∃ t, exec (.devQuery c) s = .next t ∧ Obligations.onlyEnds s t c p 0 0 (s.queryPage (p.p 0).toNat)) ∧
      (3 < (p.p 0).toNat → ∃ t, exec (.devQuery c) s = .next t ∧ Obligations.onlyEnds s t c p 0x15 0x070A [0, 0, 0, 0])) ∧
    (Obligations.runs s c 0xA0 p → ∃ t, exec (.codeStatus c) s = .next t ∧ Obligations.onlyEnds s t c p 0 0
      [s.reg Reg.fwVersion, s.reg Reg.patchVersion, s.reg Reg.loggiaVersion, loW (s.regF Reg.loggia 29 3)]) ∧
    (Obligations.runs s c 0x90 p →
      let v := (p.p 0).toNat
      (v ≠ 0 → v < 400 ∨ 2880 < v →
        ∃ t, exec (.powerCap c) s = .next t ∧ Obligations.onlyEnds s t c p 0x15 0x0407 [0, 0, 0, 0]) ∧
      (v = 0 ∨ (400 ≤ v ∧ v ≤ 2880) → s.portHolds0 (portOf p.fid) = false →
        ∃ t, exec (.powerCap c) s = .next t ∧ Obligations.onlyEnds s t c p 0x17 0x0708 [0, 0, 0, 0]) ∧
      (v = 0 ∨ (400 ≤ v ∧ v ≤ 2880) → s.portHolds0 (portOf p.fid) →
        let cap := if v = 0 then 2880 else v
        ∃ t, exec (.powerCap c) s = .next t ∧ Obligations.completes s t c p 0 0 [loW cap, 0, 0, 0] ∧
          t.regF Reg.power 16 16 = cap ∧ t.regF Reg.power 0 16 = s.regF Reg.power 0 16 ∧
          (∀ o, o ≠ Reg.power → t.reg o = s.reg o) ∧ Obligations.bufsKept s t ∧
          t = { s with qs := t.qs, conc := t.conc, bpm := t.bpm, regs := t.regs })) ∧
    (Obligations.runs s c 0x81 p →
      let now (h : Hist) := h.acksAt p.fid (p.p 0).toNat
      ∃ t, exec (.faultAck c) s = .next t ∧
        Obligations.completes s t c p 0 0 [loW (s.fc.hist.count fun _ h => now h), 0, 0, 0] ∧
        (∀ k, t.fc.hist.find k = (s.fc.hist.find k).map fun h => if now h then { h with acked := true } else h) ∧
        (∀ o, o ≠ Reg.fcStatus → t.reg o = s.reg o) ∧ Obligations.bufsKept s t ∧
        t = { s with qs := t.qs, conc := t.conc, bpm := t.bpm, regs := t.regs, fc := { s.fc with hist := t.fc.hist } })

/-- The packet's keystone writes the Session Table and has its turn (R95). -/
def Obligations.tableTurn (s : State) (p : Packet) : Prop :=
  s.qs.keyAt ≠ some s.cyc ∧
    ∀ r ∈ s.qs.packets, r.id < p.id → writesTable r.opc = true → ∀ d : Ctx, r.state ≠ .running d

/-- A session is as it was, but that OVERCOMMITTED may have cleared (R104). -/
def Obligations.relieved (x y : Session) : Prop :=
  y = { x with overcommitted := y.overcommitted } ∧ (y.overcommitted = true → x.overcommitted = true)

/-- R36, R94, R95, R96 and R97. -/
def Obligations.SessionPackets : Prop :=
  ∀ (c : Ctx) (p : Packet) (s : State),
    let i := p.sessField
    let x := s.session i
    (s.qs.keyAt = some s.cyc ∨ (∃ r ∈ s.qs.packets, r.id < p.id ∧ writesTable r.opc = true ∧ ∃ d : Ctx, r.state = .running d) →
      (Obligations.runs s c 0x10 p → exec (.sessConfig c) s = .next s) ∧
      (Obligations.runs s c 0x11 p → exec (.sessEnable c) s = .next s) ∧
      (Obligations.runs s c 0x12 p → exec (.sessDisable c) s = .next s)) ∧
    (Obligations.runs s c 0x10 p → Obligations.tableTurn s p → firstRefusal (s.configChecks p) = none →
      (p.releases = false → ∃ t, exec (.sessConfig c) s = .next t ∧ Obligations.completes s t c p 0 0 [0, 0, 0, 0] ∧
        t.session i = { x with claimed := true, owner := if x.claimed then x.owner else p.fid, cfg := s.configWords p,
                               everEnabled := x.en && x.everEnabled, snap := if x.en then x.snap else [],
                               stat := if x.en then x.stat else [],
                               spanTicks := if x.en then x.spanTicks else if x.expTicks = 0 then 0
                                 else Session.c { x with cfg := s.configWords p } s.clk.cclk } ∧
        (∀ j, j ≠ i → t.session j = s.session j) ∧ Obligations.bufsKept s t ∧
        t = { s with qs := t.qs, conc := t.conc, bpm := t.bpm, sess := t.sess }) ∧
      (p.releases = true → ∃ t, exec (.sessConfig c) s = .next t ∧ Obligations.completes s t c p 0 0 [0, 0, 0, 0] ∧
        t.session i = Session.reset ∧ (∀ j, j ≠ i → t.session j = s.session j) ∧
        (∀ k, k < 8 → t.flow (8 * i + k) = Flow.reset) ∧ (∀ f, f / 8 ≠ i → t.flow f = s.flow f) ∧
        Obligations.bufsKept s t ∧ t = { s with qs := t.qs, conc := t.conc, bpm := t.bpm, sess := t.sess, flows := t.flows })) ∧
    (Obligations.runs s c 0x11 p → Obligations.tableTurn s p → x.en = false →
      ∃ t, exec (.sessEnable c) s = .next t ∧ t.session i = { x with en := true, checkBy := some p.id } ∧
        (∀ j, j ≠ i → t.session j = s.session j) ∧ t.packet? p.id = some { p with state := .checking } ∧
        t.ctx c = Context.reset ∧ t.qs.held = s.qs.held ∧ Obligations.bufsKept s t ∧
        t = { s with qs := t.qs, conc := t.conc, bpm := t.bpm, sess := t.sess }) ∧
    (∀ (n : Fin 512) (id : Nat) (q : Packet), (s.session n.val).checkBy = some id → s.packet? id = some q → q.opc = 0x11 → s.inGf = false →
      let y := s.session n.val
      (∀ st r, s.consistency n.val y = .inl (st, r) →
        ∃ t, exec (.consistencyCheck n) s = .next t ∧
          t.session n.val = { y with en := false, checkBy := none, lastReason := r } ∧
          t.qs.held = s.qs.held ++ Obligations.answer s q st r [0, 0, 0, 0] ∧
          (∀ j, j ≠ n.val → t.session j = s.session j) ∧ Obligations.bufsKept s t ∧
          t = { s with qs := t.qs, conc := t.conc, bpm := t.bpm, sess := t.sess }) ∧
      (∀ a, s.consistency n.val y = .inr a →
        ∃ t, exec (.consistencyCheck n) s = .next t ∧ t.session n.val = y.accept s.clk.cclk a (s.hdrCopy y) ∧
          (y.isEnc → ∀ k, k < y.steps.length →
            (t.flow (8 * n.val + k)).state = 1 ∧ (t.flow (8 * n.val + k)).prod = 0 ∧
            (t.flow (8 * n.val + k)).phase = true ∧ (t.flow (8 * n.val + k)).image = (s.flow (8 * n.val + k)).image) ∧
          t.qs.held = s.qs.held ++
            Obligations.answer s q 0 0 [loW (y.e s.clk.cclk), loW y.gangSize, loW (y.slack s.clk.cclk), 0] ∧
          (∀ j, j ≠ n.val → t.session j = s.session j) ∧ Obligations.bufsKept s t ∧
          t = { s with qs := t.qs, conc := t.conc, bpm := t.bpm, sess := t.sess, flows := t.flows })) ∧
    (Obligations.runs s c 0x12 p → Obligations.tableTurn s p →
      (x.en = false → ∃ t, exec (.sessDisable c) s = .next t ∧ Obligations.onlyEnds s t c p 0 0 [0, 0, 0, 0]) ∧
      (x.en → s.framesOf i = [] → (s.qs.packets.filter fun r => r.id == p.id || r.sessField == i) = [p] →
        ∃ t, exec (.sessDisable c) s = .next t ∧ (t.session i).en = false ∧ (t.session i).vis = [] ∧
          t.qs.held = s.qs.held ++ Obligations.answer s p 0 0 [0, 0, 0, 0] ∧ t.packet? p.id = none ∧
          (∀ j, j ≠ i → Obligations.relieved (s.session j) (t.session j)) ∧ t.mem = s.mem ∧ t.sem = s.sem ∧ t.mbx = s.mbx)) ∧
    (Obligations.runs s c 0x13 p → s.checkRef p.fid (p.p 0) (p.p 1) (64 * x.steps.length) 0 = none →
      ∃ t, exec (.sessSnapshot c) s = .next t ∧
        t.mem = s.mem.store (s.refAddr (p.p 0) (p.p 1)) (bytesOfWords (x.shown s.cyc).snapshot) ∧
        Obligations.completes s t c p 0 0 [wd (x.shown s.cyc).snapshot 0, loW x.steps.length, 0, 0] ∧ Obligations.bufsKept s t ∧
        t = { s with qs := t.qs, conc := t.conc, bpm := t.bpm, mem := t.mem })

/-- R126, R135, R138, R209, R210, R219 and R228. -/
def Obligations.FramePackets : Prop :=
  ∀ (c : Ctx) (p : Packet) (s : State),
    let i := p.sessField
    let x := s.session i
    let fresh := ∀ f ∈ s.span.frames, f.packet ≠ p.id
    let unmarked (b : Nat) := ∀ u ∈ s.mem.undef, u.frame / 4096 = p.id → b < u.start ∨ u.stop ≤ b
    let alone := s.framesOf i = [] ∧ (s.qs.packets.filter fun r => r.id == p.id || r.sessField == i) = [p]
    (Obligations.runs s c 0x20 p → firstRefusal (s.encFrameChecks p) = none → x.drop = false → fresh →
      ∃ t, exec (.encFrame c) s = .next t ∧
        (∃ f ∈ t.span.frames, f.id = p.id * 4096 ∧ f.sess = i ∧ f.decode = false ∧ f.stage = .waiting ∧
          f.deadline = p.deadline ∧ f.urgent = p.urgent ∧ f.pts = pair64 (p.p 5) (p.p 4) ∧ f.force = bit (p.p 3) 0 ∧
          f.encSeq = x.encSeq ∧ f.rates = x.steps) ∧
        (t.session i).encSeq = x.encSeq + 1 ∧ (t.session i).hint = none ∧ t.qs.held = s.qs.held ∧ t.mem = s.mem) ∧
    (∀ items, Obligations.runs s c 0x30 p → firstRefusal (s.decDataChecks p) = none → x.drop = false → fresh →
      (holdsCoded items = false → alone → ∃ t, exec (.decData c items) s = .next t ∧ t.packet? p.id = none ∧
        t.qs.held = s.qs.held ++
          Obligations.answer s p 0 0 [allW, 0, loW (min (p.p 2).toNat (sumL (items.map UnitItem.bytes))), 0] ∧
        t.session i = { x with sets := (setsOf items).foldl (fun (u : Tbl Bool) e => u.put e.1 e.2) x.sets } ∧
        (∀ j, j ≠ i → t.session j = s.session j) ∧ t.span = s.span ∧ t.mem.cells = s.mem.cells) ∧
      (holdsCoded items = false → (∃ g r, s.framesOf i = g :: r ∧ g.holdsPicture = true) →
        ∃ t, exec (.decData c items) s = .next t ∧ (∃ f ∈ t.span.frames, f.id = p.id * 4096 ∧ f.length = 0) ∧
          (∀ g ∈ s.span.frames, g ∈ t.span.frames) ∧ t.mem.cells = s.mem.cells) ∧
      (holdsCoded items = true → ∃ t, exec (.decData c items) s = .next t ∧
        (∃ f ∈ t.span.frames, f.id = p.id * 4096 ∧ f.sess = i ∧ f.decode = true ∧ f.stage = .waiting ∧
          f.deadline = p.deadline ∧ f.length = (p.p 2).toNat) ∧ t.qs.held = s.qs.held ∧
        let d := s.loadWs (s.refAddr (p.p 4) (p.p 5)) 64
        let f := decFrame p 0 p.unitRef (fld (p.p 3) 0 8) items [] d (p.p 4, p.p 5)
        (∀ b, unmarked b → (∀ r ∈ s.outRanges f, b < r.1 ∨ r.1 + r.2 ≤ b) → t.mem.read b = s.mem.read b) ∧
        (∀ b, ∀ r ∈ s.outRanges f, r.1 ≤ b → b < r.1 + r.2 → t.mem.read b = Config.outputByte s.free b))) ∧
    (∀ items, Obligations.runs s c 0x32 p → firstRefusal (s.decBurstChecks p) = none → x.drop = false → fresh → alone →
      (∀ k, k < (p.p 3).toNat → holdsCoded (items.getD k []) = true) →
      let gang := s.burstGang i (p.p 0).toNat
      ∃ t, exec (.decBurst c items) s = .next t ∧
        t.span.frames = s.span.frames ++ (List.range (p.p 3).toNat).map (fun k => s.burstFrame p gang items k) ∧
        (t.session i).burstExtra = x.burstNeed gang.length ∧ t.qs.held = s.qs.held ∧ t.mem.cells = s.mem.cells ∧
        (∀ b, unmarked b →
          (∀ k, k < (p.p 3).toNat → ∀ r ∈ s.outRanges (s.burstFrame p gang items k), b < r.1 ∨ r.1 + r.2 ≤ b) →
          t.mem.read b = s.mem.read b)) ∧
    (Obligations.runs s c 0x21 p → x.isDec = false → x.en = true → alone →
      ∃ t, exec (.encFlush c) s = .next t ∧ t.packet? p.id = none ∧
        t.qs.held = s.qs.held ++ Obligations.answer s p 0 0 [loW (x.crossings - p.mark), 0, 0, 0] ∧
        (bit (p.p 0) 0 → t.session i = { x with vis := [], nextIntra := true }) ∧
        (bit (p.p 0) 0 = false → t.session i = x) ∧ (∀ j, j ≠ i → t.session j = s.session j) ∧ t.mem = s.mem) ∧
    (Obligations.runs s c 0x31 p → x.isEnc = false → x.en = true → alone →
      ∃ t, exec (.decFlush c) s = .next t ∧ t.packet? p.id = none ∧
        t.qs.held = s.qs.held ++ Obligations.answer s p 0 0 [loW (x.vis.get 0 []).length, 0, 0, 0] ∧
        t.session i = { x with vis := [], epoch := 0, order := 0, seqSeen := false, recovery := [] } ∧ (∀ j, j ≠ i → t.session j = s.session j) ∧ t.mem = s.mem) ∧
    (Obligations.runs s c 0x22 p → firstRefusal (s.stairChecks p) = none →
      ∃ t, exec (.stairSet c) s = .next t ∧ t.session i = { x with stair := (s.stairWords p).map stepOfWords } ∧
        Obligations.completes s t c p 0 0 [loW (2 ^ (p.p 2).toNat - 1), 0, 0, 0] ∧ Obligations.bufsKept s t ∧
        (∀ j, j ≠ i → t.session j = s.session j) ∧
        t = { s with qs := t.qs, conc := t.conc, bpm := t.bpm, sess := t.sess }) ∧
    (Obligations.runs s c 0x24 p → x.isDec = false → x.en = true →
      s.hintRefusal x p.fid (p.p 0) (p.p 1) 0 (some (p.p 2)) = none →
      ∃ t, exec (.hintAttach c) s = .next t ∧ t.session i = { x with hint := some (p.p 0, p.p 1, (p.p 2).toNat) } ∧
        Obligations.completes s t c p 0 0 [p.p 2, (match x.hint with | some (_, _, n) => loW n | none => 0), 0, 0] ∧
        (∀ j, j ≠ i → t.session j = s.session j) ∧ Obligations.bufsKept s t ∧
        t = { s with qs := t.qs, conc := t.conc, bpm := t.bpm, sess := t.sess })

/-- The packets with checks of their own: the command at the keystone, the opcode, and the checks in order. -/
def Obligations.checkTable (c : Ctx) (s : State) (items : List UnitItem) (units : List (List UnitItem)) (bytes : HostRead)
    (outOk : Bool) : List (Instr × Nat × (Packet → List (Option Refuse))) :=
  [(.devQuery c, 0x01, fun p => [need (decide ((p.p 0).toNat ≤ 3)) (badParam 0x070A 0)]),
   (.sessConfig c, 0x10, s.configChecks),
   (.sessEnable c, 0x11, fun p => [need (!(s.session p.sessField).en) ⟨0x17, 0x0707, 0⟩]),
   (.sessSnapshot c, 0x13, fun p =>
      [s.checkRef p.fid (p.p 0) (p.p 1) (64 * (s.session p.sessField).steps.length) 0]),
   (.encFrame c, 0x20, s.encFrameChecks), (.encFlush c, 0x21, fun p => s.kindChecks p true),
   (.stairSet c, 0x22, s.stairChecks),
   (.hintAttach c, 0x24, fun p => s.kindChecks p true ++
      [s.hintRefusal (s.session p.sessField) p.fid (p.p 0) (p.p 1) 0 (some (p.p 2))]),
   (.decData c items, 0x30, s.decDataChecks), (.decFlush c, 0x31, fun p => s.kindChecks p false),
   (.decBurst c units, 0x32, s.decBurstChecks),
   (.attest c bytes outOk, 0x41, fun p =>
      [s.refOrBus p (bit (p.p 4) 0) 0 64, s.refOrBus p (bit (p.p 4) 1) 2 6912,
       need (s.input p (bit (p.p 4) 0) 0 64 bytes).isSome busFailed, need (!bit (p.p 4) 1 || outOk) busFailed]),
   (.keyErase c, 0x42, fun p =>
      [need (decide ((p.p 0).toNat ≤ 127) || p.p 0 == allW) (badParam 0x070A 0),
       need (p.p 0 == allW || (s.key (p.p 0).toNat).state == 1) ⟨0x16, 0x0602, 0⟩,
       need (p.p 0 == allW || (s.key (p.p 0).toNat).owner == p.fid) ⟨0x16, 0x0603, 0⟩]),
   (.bufAlloc c none, 0x50, allocChecks), (.bufShare c, 0x52, s.shareChecks), (.dmaKick c, 0x60, s.kickChecks),
   (.flowSet c, 0x70, s.flowSetChecks), (.faultInject c, 0x80, s.injectChecks),
   (.fwRecover c bytes, 0xA1, fun p => s.recoverChecks p bytes)]

/-- A packet is refused: it ends with nothing done, and a decode packet's outputs hold what they held (R33). -/
def Obligations.refused (s t : State) (c : Ctx) (p : Packet) (r : Refuse) : Prop :=
  Obligations.completesAt s t c p r.status r.reason [0, loW r.v1, 0, 0] s.qs.keyAt ∧ Obligations.bufsKept s t ∧
  t = { s with qs := t.qs, conc := t.conc, bpm := t.bpm,
               mem := if p.opc = 0x30 ∨ p.opc = 0x32 then s.mem.dismissed p.id else s.mem }

/-- R77 and R78, row 9 of Table 04-7. -/
def Obligations.PacketRefusals : Prop :=
  ∀ (c : Ctx) (p : Packet) (s : State) (items : List UnitItem) (units : List (List UnitItem)) (bytes : HostRead) (outOk : Bool),
    ∀ row ∈ Obligations.checkTable c s items units bytes outOk, Obligations.runs s c row.2.1 p →
      (writesTable row.2.1 = true → Obligations.tableTurn s p) →
      ∀ r, firstRefusal (row.2.2 p) = some r → ∃ t, exec row.1 s = .next t ∧ Obligations.refused s t c p r

/-- The pools that a BUF_ALLOC of `n` bytes tries and that have a buffer free, smallest first (R289). -/
def Obligations.servers (s : State) (n : Nat) : List Nat := (s.fitting n).filter fun q => !s.poolEmpty q

/-- R289–R293 and R296. -/
def Obligations.BufferPackets : Prop :=
  (∀ (c : Ctx) (p : Packet) (s : State), Obligations.runs s c 0x50 p → 1 ≤ (p.p 0).toNat → (p.p 0).toNat ≤ 8388608 →
    (∀ q i rest, (Obligations.servers s (p.p 0).toNat).head? = some q → s.takeFree? q = some (i, rest) →
      let k := bufKey q i
      ∃ t, exec (.bufAlloc c none) s = .next t ∧
        Obligations.completes s t c p 0 0
          [mkHandle k (s.buf k).gen, loW q, loW (s.bufAddr k), hiW (s.bufAddr k)] ∧
        t.buf k = { s.buf k with state := 1, owners := [p.fid], pins := (t.buf k).pins } ∧
        (∀ j, j ≠ k → t.buf j = { s.buf j with pins := (t.buf j).pins }) ∧
        t.pool q = rest ∧ (∀ r, r ≠ q → t.pool r = s.pool r) ∧
        t.reg Reg.totalAllocs = s.reg Reg.totalAllocs + 1 ∧ (∀ o, o ≠ Reg.totalAllocs → t.reg o = s.reg o) ∧
        t = { s with qs := t.qs, conc := t.conc, bpm := t.bpm, regs := t.regs }) ∧
    (Obligations.servers s (p.p 0).toNat = [] →
      ∃ t, exec (.bufAlloc c none) s = .next t ∧ Obligations.onlyEnds s t c p 0x13 0x0304 [0, 0, 0, 0])) ∧
  (∀ (c d : Ctx) (p r : Packet) (s : State), Obligations.runs s c 0x50 p → Obligations.runs s d 0x50 r → c.pair ≠ d.pair →
    1 ≤ (p.p 0).toNat → (p.p 0).toNat ≤ 8388608 → 1 ≤ (r.p 0).toNat → (r.p 0).toNat ≤ 8388608 →
    ∀ q i rest, (s.fitting (p.p 0).toNat).head? = some q → (s.fitting (r.p 0).toNat).head? = some q →
      s.bpm.live = true → s.takeFree? q = some (i, rest) → i ∉ rest.returned →
      let first := if b2n (s.pool q).rrNext = c.pair.val then p else r
      let second := if b2n (s.pool q).rrNext = c.pair.val then r else p
      let k := bufKey q i
      ∃ t st re vs, exec (.bufAlloc c (some ⟨d, 0⟩)) s = .next t ∧
        t.qs.held = s.qs.held ++
          Obligations.answer s first 0 0 [mkHandle k (s.buf k).gen, loW q, loW (s.bufAddr k), hiW (s.bufAddr k)] ++
          Obligations.answer s second st re vs ∧
        (t.buf k).owners = [first.fid] ∧ (t.pool q).rrNext = !(s.pool q).rrNext) ∧
  (∀ (c : Ctx) (p : Packet) (s : State), Obligations.runs s c 0x51 p →
    let k := handleKey (p.p 0)
    let rest := (s.buf k).owners.filter fun o => o != p.fid
    (∀ r, s.checkHandle p.fid (p.p 0) 0 = some r →
      let s1 := (s.bumpSat Reg.freeRefused 0 32 1).protoEvent p.fid p.q
      ∃ t, exec (.bufFree c) s = .next t ∧ Obligations.onlyEnds s1 t c p r.status r.reason [0, loW r.v1, 0, 0]) ∧
    (s.checkHandle p.fid (p.p 0) 0 = none →
      ∃ t, exec (.bufFree c) s = .next t ∧ Obligations.completes s t c p 0 0 [loW rest.length, 0, 0, 0] ∧
        (∀ j, j ≠ k → t.buf j = { s.buf j with pins := (t.buf j).pins }) ∧
        (rest ≠ [] → t.buf k = { s.buf k with owners := rest, pins := (t.buf k).pins } ∧ t.regs = s.regs) ∧
        (rest = [] →
          t.buf k = { s.buf k with owners := [], gen := nextGen (s.buf k).gen, state := 2, pins := (t.buf k).pins } ∧
          t.reg Reg.totalFrees = s.reg Reg.totalFrees + 1 ∧ (∀ o, o ≠ Reg.totalFrees → t.reg o = s.reg o)) ∧
        t = { s with qs := t.qs, conc := t.conc, bpm := t.bpm, regs := t.regs })) ∧
  (∀ (c : Ctx) (p : Packet) (s : State), Obligations.runs s c 0x52 p → firstRefusal (s.shareChecks p) = none →
    let k := handleKey (p.p 0)
    let f := fld (p.p 1) 0 7
    let now := if (s.buf k).owners.contains f then (s.buf k).owners else (s.buf k).owners ++ [f]
    ∃ t, exec (.bufShare c) s = .next t ∧ Obligations.completes s t c p 0 0 [loW now.length, 0, 0, 0] ∧
      t.buf k = { s.buf k with owners := now, pins := (t.buf k).pins } ∧
      (∀ j, j ≠ k → t.buf j = { s.buf j with pins := (t.buf j).pins }) ∧
      t = { s with qs := t.qs, conc := t.conc, bpm := t.bpm }) ∧
  (∀ (pool : Fin 8) (index : Fin 131072) (s : State),
    let k := bufKey pool.val index.val
    let n := poolSize pool.val
    (s.bpm.live = false ∨ (s.buf k).state ≠ 2 ∨ (s.buf k).pins ≠ 0 → exec (.bufferClear pool index) s = .next s) ∧
    (s.bpm.live = true → (s.buf k).state = 2 → (s.buf k).pins = 0 →
      (s.bufAtRisk k = true → ∃ t, exec (.bufferClear pool index) s = .next t ∧
        t.buf k = { s.buf k with state := 3, owners := [] } ∧ (∀ j, j ≠ k → t.buf j = s.buf j) ∧
        t = { s with bpm := t.bpm, mc := t.mc, regs := t.regs, fresh := t.fresh, freshAt := t.freshAt }) ∧
      (s.bufAtRisk k = false → ∃ t, exec (.bufferClear pool index) s = .next t ∧
        t.mem = s.mem.zeroRange (s.bufAddr k) n ∧
        t.buf k = { s.buf k with state := 0 } ∧ (∀ j, j ≠ k → t.buf j = s.buf j) ∧
        t.pool pool.val = { s.pool pool.val with returned := (s.pool pool.val).returned ++ [index.val] } ∧
        (∀ q, q ≠ pool.val → t.pool q = s.pool q) ∧
        pair64 (t.reg Reg.writeBytesHi) (t.reg Reg.writeBytesLo) =
          (pair64 (s.reg Reg.writeBytesHi) (s.reg Reg.writeBytesLo) + n) % 2 ^ 64 ∧
        t = { s with bpm := t.bpm, mem := t.mem, regs := t.regs })))

/-- R286, with SIZE of Table 13-1. -/
def Obligations.PoolLayout : Prop :=
  ∀ s : State,
    s.poolBase 7 = 0 ∧ (∀ p, p < 7 → s.poolBase p = s.poolBase (p + 1) + s.poolCount (p + 1) * poolSize (p + 1)) ∧
    (∀ p, p < 8 → s.poolBase p = ((List.range 8).map fun q => if p < q then s.poolCount q * poolSize q else 0).sum) ∧
    (∀ p i, p < 8 → i < 131072 → s.bufAddr (bufKey p i) = s.poolBase p + i * poolSize p ∧
      poolSize p ∣ s.bufAddr (bufKey p i)) ∧
    (∀ p q i j, p < q → q < 8 → i < s.poolCount p → i < 131072 → j < s.poolCount q → j < 131072 →
      s.bufAddr (bufKey q j) + poolSize q ≤ s.bufAddr (bufKey p i))

/-- A packet waits outside its context in state `st`; nothing is completed. -/
def Obligations.waits (s t : State) (c : Ctx) (p : Packet) (st : PState) : Prop :=
  t.packet? p.id = some { p with state := st } ∧ t.ctx c = Context.reset ∧ Obligations.yields s t c ∧ t.qs.held = s.qs.held

/-- No packet of the same kind that was fetched earlier is in a context (R302, R339). -/
def Obligations.first (s : State) (p : Packet) (same : Packet → Prop) : Prop :=
  ∀ r ∈ s.qs.packets, r.id < p.id → same r → ∀ d : Ctx, r.state ≠ .running d

/-- The writes that carry bytes to a bus address: at most 512 bytes each, none across a 4 KiB boundary (Table 03-1, R298). -/
def Obligations.busWrites (fid addr : Nat) (bs : List Byte) : List Emit :=
  let pieces (a : Nat) (xs : List Byte) : List Emit :=
    (List.range ((xs.length + 511) / 512)).map fun i => .busWrite fid (a + 512 * i) ((xs.drop (512 * i)).take 512)
  let b := 4096 - addr % 4096
  pieces addr (bs.take b) ++ pieces (addr + b) (bs.drop b)

/-- R361, R363 and R366. -/
def Obligations.KeyPackets : Prop :=
  (∀ (c : Ctx) (p : Packet) (s : State) (blob : HostRead), Obligations.runs s c 0x40 p →
    ¬ Obligations.first s p (fun r => r.opc = 0x40) → exec (.keyImport c blob) s = .next s) ∧
  (∀ (c : Ctx) (p : Packet) (s : State) (blob : HostRead) (k : Nat), Obligations.runs s c 0x40 p →
    Obligations.first s p (fun r => r.opc = 0x40) → firstRefusal ((s.importChecks p blob).take 6) = none → s.importSlot p = some k →
    ∃ t, exec (.keyImport c blob) s = .next t ∧
      match s.unwrap ((s.input p (bit (p.p 4) 0) 0 1664 blob).getD []) with
      | some key =>
        Obligations.completes s t c p 0 0 [loW k, keyIdOf key, 0, 0] ∧
        t.key k = { state := 1, usage := (p.p 3).toNat, owner := p.fid, holds := 0, keyId := keyIdOf key, seq := 0, key } ∧
        (∀ j, j ≠ k → t.key j = s.key j) ∧ t.reg Reg.imports = s.reg Reg.imports + 1 ∧
        (∀ o, o ≠ Reg.imports → t.reg o = s.reg o) ∧ Obligations.bufsKept s t ∧
        t = { s with qs := t.qs, conc := t.conc, bpm := t.bpm, regs := t.regs, sec := { s.sec with slots := t.sec.slots } }
      | none =>
        Obligations.completes s t c p 0x16 0x0605 [0, 0, 0, 0] ∧
        (t.reg Reg.unwrapFails).toNat = min ((s.reg Reg.unwrapFails).toNat + 1) (2 ^ 32 - 1) ∧
        (∀ o, o ≠ Reg.unwrapFails → t.reg o = s.reg o) ∧ Obligations.bufsKept s t ∧
        t = { s with qs := t.qs, conc := t.conc, bpm := t.bpm, regs := t.regs }) ∧
  (∀ (c : Ctx) (p : Packet) (s : State), Obligations.runs s c 0x42 p →
    (s.qs.packets.filter fun r => r.id == p.id) = [p] → (∀ r ∈ s.qs.packets, ∀ ks n, r.state ≠ .erasing ks n) →
    let ks := s.eraseSlots p
    (p.p 0 = allW → ks = [] → ∃ t, exec (.keyErase c) s = .next t ∧ Obligations.onlyEnds s t c p 0 0 [0, 0, 0, 0]) ∧
    (p.p 0 = allW ∨ (p.p 0).toNat ≤ 127 → ks ≠ [] →
      (∀ k ∈ ks, (s.key k).state = 1 ∧ (s.key k).owner = p.fid ∧ (s.key k).holds = 0 ∧ s.sealing k = false) →
      ∃ t, exec (.keyErase c) s = .next t ∧ Obligations.completes s t c p 0 0 [loW ks.length, 0, 0, 0] ∧
        (∀ k ∈ ks, t.key k = KeySlot.reset) ∧ (∀ k, k ∉ ks → t.key k = s.key k) ∧ Obligations.bufsKept s t ∧
        t = { s with qs := t.qs, conc := t.conc, bpm := t.bpm, sec := { s.sec with slots := t.sec.slots } }) ∧
    ((p.p 0).toNat ≤ 127 → (s.key (p.p 0).toNat).state = 1 → (s.key (p.p 0).toNat).owner = p.fid →
      (s.key (p.p 0).toNat).holds ≠ 0 ∨ s.sealing (p.p 0).toNat = true →
      ∃ t, exec (.keyErase c) s = .next t ∧ Obligations.waits s t c p (.erasing ks 1) ∧
        t.key (p.p 0).toNat = { s.key (p.p 0).toNat with state := 2 } ∧ (∀ k, k ≠ (p.p 0).toNat → t.key k = s.key k) ∧
        Obligations.bufsKept s t ∧
        t = { s with qs := t.qs, conc := t.conc, bpm := t.bpm, sec := { s.sec with slots := t.sec.slots } })) ∧
  (∀ (c : Ctx) (p : Packet) (s : State) (nonce : HostRead), Obligations.runs s c 0x41 p →
    s.refOrBus p (bit (p.p 4) 0) 0 64 = none → s.refOrBus p (bit (p.p 4) 1) 2 6912 = none →
    ∀ bs, s.input p (bit (p.p 4) 0) 0 64 nonce = some bs →
    ∃ t, exec (.attest c nonce true) s = .next t ∧ Obligations.completes s t c p 0 0 [6912, 0, 0, 0] ∧
      Obligations.bufsKept s t ∧
      (bit (p.p 4) 1 = true → t.mem = s.mem ∧ 
        t.out = s.out ++ (if s.ideDrops (portOf p.fid) .device then []
          else Obligations.busWrites p.fid (p.bus 2) (s.reportBytes bs) ++ [.flushRead p.fid (p.bus 2 + 6911)])) ∧
      (bit (p.p 4) 1 = false → t.out = s.out ∧ t.mem = s.mem.store (s.refAddr (p.p 2) (p.p 3)) (s.reportBytes bs)) ∧
      t = { s with qs := t.qs, conc := t.conc, bpm := t.bpm, mem := t.mem, out := t.out })

/-- A firmware write joins: it starts where none is in progress. -/
def Obligations.joins (s t : State) (w : FwWriteSt) : Prop :=
  (s.sec.write = none → t.sec = { s.sec with write := some w } ∧ t.reg Reg.fwWrite = 0x80000000) ∧
  (∀ v, s.sec.write = some v → t.sec = { s.sec with queue := s.sec.queue ++ [w] } ∧ t.reg Reg.fwWrite = s.reg Reg.fwWrite) ∧
  ∀ o, o ≠ Reg.fwWrite → t.reg o = s.reg o

/-- The bank that is not running, and the two records, after a write that was read back and kept. -/
def Obligations.recorded (s t : State) : Prop :=
  let b := s.spareBankB
  let x? := s.sec.rec0.filter ActiveRec.valid
  let y? := s.sec.rec1.filter ActiveRec.valid
  (∀ x y, x? = some x → y? = some y →
    let r := ActiveRec.new (max x.seqNo y.seqNo + 1) b
    (x.seqNo < y.seqNo → t.sec.rec0 = some r ∧ t.sec.rec1 = some y) ∧
    (y.seqNo ≤ x.seqNo → t.sec.rec0 = some x ∧ t.sec.rec1 = some r)) ∧
  (∀ x, x? = some x → y? = none → t.sec.rec0 = some x ∧ t.sec.rec1 = some (ActiveRec.new (x.seqNo + 1) b)) ∧
  (∀ y, x? = none → y? = some y → t.sec.rec0 = some (ActiveRec.new (y.seqNo + 1) b) ∧ t.sec.rec1 = some y) ∧
  (x? = none → y? = none → (∃ n, t.sec.rec0 = some (ActiveRec.new n b)) ∧ t.sec.rec1 = s.sec.rec1)

/-- R360 and R391. -/
def Obligations.FirmwareWrites : Prop :=
  (∀ (c : Ctx) (p : Packet) (s : State) (image : HostRead) (img : List Byte), Obligations.runs s c 0xA1 p →
    firstRefusal ((s.recoverChecks p image).take 4) = none →
    s.input p (bit (p.p 3) 0) 0 (p.p 2).toNat image = some img →
    ∃ t, exec (.fwRecover c image) s = .next t ∧
      match s.judgeRefuse img with
      | some r => Obligations.onlyEnds s t c p r.status r.reason [0, loW r.v1, 0, 0]
      | none =>
        Obligations.waits s t c p .writing ∧ Obligations.bufsKept s t ∧
        Obligations.joins s t { packet := some p.id, mbx := none, image := img, fid := p.fid, pins := if bit (p.p 3) 0 then [] else [handleKey (p.p 0)] } ∧
        t = { s with qs := t.qs, conc := t.conc, bpm := t.bpm, sec := t.sec, regs := t.regs }) ∧
  (∀ (s : State) (image : HostRead), s.takesRequest = true → (s.box 0).e1.owner = 0x81 → (s.box 0).e0.owner ≠ 0x81 →
    let ws := (s.box 0).e0.queue
    let owner := (s.box 0).e0.owner
    let n := (wd ws 3).toNat
    ∃ t, exec (.fwRecoverMailbox image) s = .next t ∧ (t.box 0).e0.queue = ws.drop 4 ∧
      (∀ m, m ≠ 0 → t.box m = s.box m) ∧
      (∀ r, s.requestRefusal (wd ws 0) owner n image = some r →
        (t.box 0).e1.queue =
          (s.box 0).e1.queue ++ [at_ 24 0xA1 ||| at_ 16 r.status ||| at_ 0 (fld (wd ws 0) 0 16), loW r.reason, 0, 0] ∧
        t = { s with mbx := t.mbx, ic := t.ic }) ∧
      (s.requestRefusal (wd ws 0) owner n image = none →
        (t.box 0).e1.queue = (s.box 0).e1.queue ∧
        Obligations.joins s t { packet := none, mbx := some (fld (wd ws 0) 0 16, owner - 1), image := fit n (image.getD []), fid := owner - 1, pins := [] } ∧
        t = { s with mbx := t.mbx, ic := t.ic, sec := t.sec, regs := t.regs })) ∧
  (∀ (s : State) (w : FwWriteSt) (good : Bool), s.sec.write = some w →
    (∀ id q, w.packet = some id → s.packet? id = some q → q.opc = 0xA1) →
    let n := sectorsOf w.image
    let kept := good = true ∧ (w.mbx = none ∨ s.portHolds0 (portOf w.fid) = true)
    ∃ t, exec (.firmwareWriteEnd good) s = .next t ∧
      (good = true → w.image.length ≤ 8388608 →
        (∀ i, i < w.image.length → t.spareBank[i]? = w.image[i]?) ∧ (∀ i, n * 65536 ≤ i → t.spareBank[i]? = s.spareBank[i]?)) ∧
      (good = false → t.spareBank = (Config.flashResidue s.free).take 0x1F00000) ∧
      (kept → Obligations.recorded s t) ∧ (¬ kept → t.sec.rec0 = s.sec.rec0 ∧ t.sec.rec1 = s.sec.rec1) ∧
      t.sec.write = s.sec.queue.head? ∧ t.sec.queue = s.sec.queue.tail ∧
      t.reg Reg.fwWrite = (if s.sec.queue = [] then at_ 0 n else 0x80000000) ∧
      (∀ id q, w.packet = some id → w.mbx = none → s.packet? id = some q →
        t.qs.held = s.qs.held ++
          (if good then Obligations.answer s q 0 0 [loW (fwVer w.image), 0, 0, 0] else Obligations.answer s q 0x20 0 [0, 0, 0, 0]) ∧
        t.packet? id = none) ∧
      t.mem = s.mem ∧ t.sess = s.sess ∧ t.flows = s.flows ∧ t.dma = s.dma ∧ t.sem = s.sem)

/-- R253, R255, R302 and R383. -/
def Obligations.KicksFlowsAndInjections : Prop :=
  (∀ (c : Ctx) (p : Packet) (s : State), Obligations.runs s c 0x60 p → firstRefusal (s.kickChecks p) = none →
    let turn := Obligations.first s p fun r => r.opc = 0x60 ∧ r.p 0 = p.p 0
    let n := (p.p 0).toNat
    let ch := s.chan n
    let k := handleKey (p.p 1)
    (¬ turn → exec (.dmaKick c) s = .next s) ∧
    (turn → ch.state = 3 → ∃ t, exec (.dmaKick c) s = .next t ∧ Obligations.onlyEnds s t c p 0x20 0 [0, 0, 0, 0]) ∧
    (turn → ch.state ≠ 3 → ∃ t, exec (.dmaKick c) s = .next t ∧ Obligations.waits s t c p (.kick n) ∧
      Obligations.bufsKept s t ∧ 0 < (t.buf k).pins ∧ (∀ m, m ≠ n → t.chan m = s.chan m) ∧
      (ch.kicks ≠ [] → t.chan n = { ch with kicks := (t.chan n).kicks } ∧ (t.chan n).kicks.head? = ch.kicks.head? ∧
        p.id ∈ (t.chan n).kicks ∧ (∀ j ∈ ch.kicks, j ∈ (t.chan n).kicks ∨ j = p.id) ∧
        (ch.kicks.tail.Pairwise (· < ·) → (t.chan n).kicks.tail.Pairwise (· < ·))) ∧
      (ch.kicks = [] → ch.state = 0 →
        t.chan n = { ch with kicks := [p.id], state := 1, descIndex := 0, desc := s.refAddr (p.p 1) (p.p 2), descBuf := k, left := (p.p 3).toNat,
                             links := 0, bytes := 0, xfer := none, trig := none, stopping := false, retried := 0 }) ∧
      t = { s with qs := t.qs, conc := t.conc, bpm := t.bpm, dma := t.dma })) ∧
  (∀ (c : Ctx) (p : Packet) (s : State), Obligations.runs s c 0x70 p → firstRefusal (s.flowSetChecks p) = none →
    let f := flowId p.sessField (p.p 0).toNat
    let x := s.flow f
    let restarts := (s.session p.sessField).en = true ∧ x.state = 2
    ∃ t, exec (.flowSet c) s = .next t ∧ Obligations.completes s t c p 0 0 [loW f, 0, 0, 0] ∧ Obligations.bufsKept s t ∧
      (t.flow f).image = s.flowImage p ∧
      (t.flow f).tokens = min x.tokens (imgBurst (s.flowImage p) * tokenUnit) ∧
      (restarts → (t.flow f).state = 1 ∧ (t.flow f).haltCause = 0) ∧
      (¬ restarts → t.flow f = { x with image := (t.flow f).image, tokens := (t.flow f).tokens }) ∧
      t.flow f = { x with image := (t.flow f).image, tokens := (t.flow f).tokens, state := (t.flow f).state,
                          haltCause := (t.flow f).haltCause, ringPin := (t.flow f).ringPin } ∧
      (∀ g, g ≠ f → t.flow g = s.flow g) ∧
      t = { s with qs := t.qs, conc := t.conc, bpm := t.bpm, flows := t.flows }) ∧
  (∀ (c : Ctx) (p : Packet) (s : State), Obligations.runs s c 0x80 p → firstRefusal (s.injectChecks p) = none →
    ∃ t, exec (.faultInject c) s = .next t ∧ Obligations.waits s t c p .injecting ∧ Obligations.bufsKept s t ∧
      t.fc.injections = s.fc.injections ++
        [{ packet := p.id, unit := (p.p 0).toNat, code := (p.p 1).toNat, cls := (p.p 2).toNat, due := s.now + (p.p 3).toNat }] ∧
      t = { s with qs := t.qs, conc := t.conc, bpm := t.bpm, fc := { s.fc with injections := t.fc.injections } }) ∧
  (∀ (id : Nat) (i : Injection) (p : Packet) (s : State),
    (s.fc.injections.find? fun j => j.packet == id) = some i → s.packet? id = some p →
    (s.now < i.due → exec (.injectedFaultFire id) s = .next s) ∧
    (i.due ≤ s.now →
      let s1 := { s with fc := { s.fc with injections := s.fc.injections.filter fun j => j.packet != id } }
      let x := s1.injected i p.fid
      ∃ t, exec (.injectedFaultFire id) s = .next t ∧
        (∀ q, x.st.packet? id = some q →
          t.qs.held = x.st.qs.held ++ Obligations.answer x.st q 0 0 [loW x.seq, 0, 0, 0] ∧ t.packet? id = none ∧
          t.fc = x.st.fc ∧ t.regs = x.st.regs) ∧
        (i.unit / 256 = 9 ∨ i.unit / 256 = 13 → x = s1.report (reportOf i.unit i.code (some (i.cls, p.fid))) ∧
          (i.cls = 0 → x.st.packet? id = some p))))

/-- R44. The event is `protoEvent`, which counts it for the function's port and records it at the Fault Collector. -/
def Obligations.UnboundDoorbells : Prop :=
  ∀ (f : Fid) (offset size : Nat) (v : BitVec 64) (s : State),
    s.liveFor f.val .doorbells = true → size = 4 ∨ size = 8 → offset % 8 = 0 →
    (isPf f.val = true → 8192 ≤ offset / 8 ∨ (s.queue (offset / 8)).ty = 0 ∨ (s.queue (offset / 8)).fid ≠ f.val) →
    (isPf f.val = false → ∀ e ∈ s.qs.tbl, e.2.ty = 0 ∨ e.2.fid ≠ f.val ∨ e.2.dbSlot ≠ offset / 8) →
    ∃ t, exec (.doorbellSubmission f offset size v) s = .next t ∧ exec (.doorbellCompletion f offset size v) s = .next t ∧
      t.qs = s.qs ∧ t = s.protoEvent f.val (offset / 8) ∧
      (t.reg (Reg.protoEvents (portOf f.val))).toNat =
        min ((s.reg (Reg.protoEvents (portOf f.val))).toNat + 1) (2 ^ 32 - 1)

/-- R70, R75, R76 and R441. -/
def Obligations.DoorbellsAndFetch : Prop :=
  (∀ (f : Fid) (offset size q : Nat) (v : BitVec 64) (s : State),
    s.liveFor f.val .doorbells = true → size = 4 ∨ size = 8 → offset % 8 = 0 →
    s.bellQueue f.val offset = some q →
    let x := s.queue q
    let idx := v.toNat % 65536
    let bad := x.en = false ∨ x.size ≤ idx ∨
      (x.ty = 2 ∧ (x.tail + x.size - x.head) % x.size < (idx + x.size - x.head) % x.size)
    ∃ t, exec (.doorbellSubmission f offset size v) s = .next t ∧ exec (.doorbellCompletion f offset size v) s = .next t ∧
      (∀ r, r ≠ q → t.queue r = s.queue r) ∧
      (bad → (t.queue q).dbDrops = min (x.dbDrops + 1) 65535 ∧ t.queue q = { x with dbDrops := (t.queue q).dbDrops } ∧
        t = (s.setQueue q (t.queue q)).protoEvent f.val q) ∧
      (¬ bad → x.ty = 2 → t = s.setQueue q { x with head := idx }) ∧
      (¬ bad → x.ty ≠ 2 →
        t = { s.setQueue q { x with tail := idx, fetchErr := false } with mem := { s.mem with undef := t.mem.undef }, free := t.free } ∧
        (x.mem = false → t.mem = s.mem ∧ t.free = s.free))) ∧
  (∀ (q : Fin 8192) (entries : List (List Word)) (s : State),
    s.batchSize q.val = 0 ∨ s.fetchPick (portOf (s.queue q.val).fid) ≠ some q.val →
      exec (.fetchBatch q entries) s = .next s) ∧
  (∀ (q : Fin 8192) (s : State), let x := s.queue q.val
    x.ty = 1 → s.batchSize q.val ≠ 0 → q.val ∈ s.qs.tbl.map (·.1) → ∀ used,
      s.qs.fetchTurn.get (portOf x.fid) (8191, 255) = (q.val, used) → used < max 1 x.weight →
      s.fetchPick (portOf x.fid) = some q.val) ∧
  (∀ (q : Fin 8192) (entries : List (List Word)) (s : State),
    let x := s.queue q.val
    let port := portOf x.fid
    let n := s.batchSize q.val
    n ≠ 0 → s.fetchPick port = some q.val → (∀ p ∈ s.qs.packets, p.id < s.qs.nextId) →
    let got := if x.mem then ((List.range n).map fun k => s.memEntry x k).takeWhile Option.isSome |>.filterMap id
               else entries.take n
    let made (first : Nat) : List Packet := got.zipIdx.map fun (w, k) =>
      { id := first + k, q := q.val, fid := x.fid, words := w, state := .fetched,
        mark := (s.session (fld (wd w 0) 16 9)).crossings, mute := false }
    let turn := s.qs.fetchTurn.get port (8191, 255)
    ∃ t, exec (.fetchBatch q entries) s = .next t ∧
      ((∀ c o a, s.qs.lastFetch = some (c, o, a) → c ≠ s.cyc ∨ o = port) →
        t.qs.packets = s.qs.packets ++ made s.qs.nextId ∧ t.qs.sessTie = s.qs.sessTie ∧
        (got ≠ [] → t.qs.lastFetch = some (s.cyc, port, s.qs.nextId))) ∧
      (∀ o a, s.qs.lastFetch = some (s.cyc, o, a) → o ≠ port → got ≠ [] → a ≤ s.qs.nextId →
        (∀ p ∈ s.qs.packets, a ≤ p.id → p.state = .fetched) →
        t.qs.sessTie = !s.qs.sessTie ∧
        (port ≠ b2n s.qs.sessTie → t.qs.packets = s.qs.packets ++ made s.qs.nextId) ∧
        (port = b2n s.qs.sessTie →
          t.qs.packets = (s.qs.packets.filter fun p => decide (p.id < a)) ++ made a ++
            (s.qs.packets.filter fun p => decide (a ≤ p.id)).map fun p => { p with id := p.id + got.length })) ∧
      t.qs.nextId = s.qs.nextId + got.length ∧ (∀ r, r ≠ q.val → t.queue r = s.queue r) ∧ 1 ≤ n ∧ n ≤ 8 ∧
      t.qs.fetchTurn = s.qs.fetchTurn.put port
        (q.val, if turn.1 = q.val ∧ turn.2 < max 1 x.weight then turn.2 + 1 else 1) ∧
      (t.queue q.val).head = (if got = [] then x.head else (x.head + got.length) % x.size) ∧
      t.queue q.val = { x with head := (t.queue q.val).head, fetchErr := x.fetchErr || decide (got.length < n) } ∧
      let u : State := { s with qs := t.qs, mem := { s.mem with undef := t.mem.undef }, free := t.free }
      (got.length = n → t = u) ∧
      (got.length < n →
        t = u.log { Report.of (0x0B00 + x.fid) 0x0B02 with fid := some x.fid, detail := q.val }))

/-- The reads that a bus input asks for: at most 4 KiB each (Table 03-1). -/
def Obligations.busReads (fid addr n : Nat) : List Emit :=
  (List.range ((n + 4095) / 4096)).map fun i => .busRead fid (addr + 4096 * i) (min 4096 (n - 4096 * i))

/-- Bytes of input that a packet names by bus address (R80): KEY_IMPORT's blob, ATTEST's nonce, FW_RECOVER's image. -/
def Obligations.busInput (p : Packet) : Nat :=
  if p.opc = 0x40 ∧ bit (p.p 4) 0 = true then 1664
  else if p.opc = 0x41 ∧ bit (p.p 4) 0 = true then 64
  else if p.opc = 0xA1 ∧ bit (p.p 3) 0 = true ∧ 4096 ≤ (p.p 2).toNat ∧ (p.p 2).toNat ≤ 8388608 then (p.p 2).toNat
  else 0

/-- Memory without the undefined outputs of a decode packet that ends before its pictures (R33). -/
def Obligations.dismissed (s : State) (p : Packet) : Mem := if p.opc = 0x30 ∨ p.opc = 0x32 then s.mem.dismissed p.id else s.mem

/-- R67, R69, R70, R72, R78, R80, R90 and R334. -/
def Obligations.DispatchAndCompletion : Prop :=
  (∀ (q : Fin 8192) (s : State), s.headOf q.val = none → exec (.packetDispatch q) s = .next s) ∧
  (∀ (q : Fin 8192) (p : Packet) (s : State), s.headOf q.val = some p →
    (s.packet? p.id = some p) →
    (s.fenced p = true → exec (.packetDispatch q) s = .next s) ∧
    (s.fenced p = false →
      (∀ r, firstRefusal (s.earlyChecks p) = some r →
        ∃ t, exec (.packetDispatch q) s = .next t ∧
          t.qs = { s.qs with
            held := s.qs.held ++ Obligations.answerOn s p (if s.cqOk p.cq p.fid then p.cq else (s.queue p.q).defaultCq) r.status r.reason [0, loW r.v1, 0, 0],
            packets := s.qs.packets.filter fun z => z.id != p.id } ∧ t = { s with qs := t.qs, mem := Obligations.dismissed s p }) ∧
      (firstRefusal (s.earlyChecks p) = none →
        (s.dispatchable p = false ∨ s.urgentAhead p = true ∨ s.pairFor p = none ∨
            (∃ k, s.pairFor p = some k ∧ s.freeCtxs k = []) → exec (.packetDispatch q) s = .next s) ∧
        (s.dispatchable p = true → s.urgentAhead p = false → ∀ k i rest, s.pairFor p = some k → s.freeCtxs k = i :: rest →
          (∀ r, firstRefusal (s.lateChecks p) = some r →
            ∃ t, exec (.packetDispatch q) s = .next t ∧
              t.qs = { s.qs with held := s.qs.held ++ Obligations.answer s p r.status r.reason [0, loW r.v1, 0, 0],
                                 packets := s.qs.packets.filter fun z => z.id != p.id } ∧
              t.reg Reg.dispatched = s.reg Reg.dispatched + 1 ∧ (∀ o, o ≠ Reg.dispatched → t.reg o = s.reg o) ∧
              t = { s with qs := t.qs, regs := t.regs, mem := Obligations.dismissed s p }) ∧
          (firstRefusal (s.lateChecks p) = none →
            let c : Ctx := { pair := Fin.ofNat 2 k, slot := Fin.ofNat 8 i }
            ∃ t, exec (.packetDispatch q) s = .next t ∧ t.packet? p.id = some { p with state := .running c } ∧
              t.ctx c = { Context.reset with
                packet := some p.id, pc := s.entryOf p.opc, lastKey := s.entryOf p.opc, loggia := decide (0xE0 ≤ p.opc), ranAt := s.cyc,
                globals := Reg.globals.map fun off => (off, s.reg off) } ∧
              t.out = s.out ++
                (if s.ideDrops (portOf p.fid) .device = false ∧ p.bus 0 + Obligations.busInput p ≤ 2 ^ 64 then Obligations.busReads p.fid (p.bus 0) (Obligations.busInput p) else []) ∧
              (∀ d, d ≠ c → t.ctx d = s.ctx d) ∧ t.qs.held = s.qs.held ∧
              t.reg Reg.dispatched = s.reg Reg.dispatched + 1 ∧ (∀ o, o ≠ Reg.dispatched → t.reg o = s.reg o) ∧
              t = { s with qs := t.qs, conc := t.conc, regs := t.regs, out := t.out }))))) ∧
  (∀ (q : Fin 8192) (s : State),
    let x := s.queue q.val
    ((s.qs.held.find? fun c => c.cq == q.val) = none → exec (.completionWrite q) s = .next s) ∧
    (x.en = false ∨ x.ty ≠ 2 ∨ x.full = true ∨ s.reachable x.fid = false ∨ s.clk.inDeep = true →
      exec (.completionWrite q) s = .next s) ∧
    (∀ c, (s.qs.held.find? fun c => c.cq == q.val) = some c → x.en = true → x.ty = 2 → x.full = false →
      s.reachable x.fid = true → s.clk.inDeep = false →
      ((∃ k, c.crossedAt = some k ∧ s.cyc ≤ k) → exec (.completionWrite q) s = .next s) ∧
      ((∀ k, c.crossedAt = some k → k < s.cyc) →
      let ws := c.words x.phase
      let a := x.base + 32 * x.tail
      ∃ t, exec (.completionWrite q) s = .next t ∧
        t.qs.held = s.qs.held.eraseP (fun d => d.cq == q.val) ∧
        t.queue q.val = { x with tail := (x.tail + 1) % x.size, phase := if (x.tail + 1) % x.size = 0 then !x.phase else x.phase } ∧
        (∀ r, r ≠ q.val → t.queue r = s.queue r) ∧ t.qs.packets = s.qs.packets ∧
        (x.mem = true → t.mem = s.mem.store a (bytesOfWords ws) ∧ t.out = s.out ++ [.completionEntry q.val x.tail ws]) ∧
        (x.mem = false → t.mem = s.mem ∧
          t.out = s.out ++ (if s.ideDrops (portOf x.fid) .device then [] else Obligations.busWrites x.fid a (bytesOfWords ws)) ++
            [.completionEntry q.val x.tail ws]) ∧
        t.ic = (if c.noIrq then s.ic else (s.raise x.irqSrc).ic) ∧
        t = { s with qs := t.qs, mem := t.mem, out := t.out, ic := t.ic })))

/-- Microcycles since the last keystone after one more microword (R343). -/
def Obligations.microcycles (s : State) (c : Ctx) (mop stall : Nat) : Nat := (s.routine c).watchdog + 1 + stallOf mop stall

/-- The context as it stands while it executes the microword: its microcycles counted. -/
def Obligations.ran (s : State) (c : Ctx) (mop stall : Nat) : Context :=
  { s.routine c with watchdog := Obligations.microcycles s c mop stall, ranAt := s.cyc }

/-- The state while a context executes a microword: KEY_GAP_PEAK no lower than its count, and its pair's turn at the context. -/
def Obligations.counted (s : State) (c : Ctx) (mop stall : Nat) : State :=
  let n := Obligations.microcycles s c mop stall
  let u := if s.regF Reg.keyGapPeak 0 13 < n then s.raiseF Reg.keyGapPeak 0 13 n else s
  { u with conc := { u.conc with turns := u.conc.turns.put c.pair.val { s.turn c.pair with cur := some c.slot.val } } }.setCtx
    c (Obligations.ran s c mop stall)

/-- After a microword that leaves its context as `x`, at the next address (R336). -/
def Obligations.stepped (s : State) (c : Ctx) (mop stall : Nat) (x : Context) : State :=
  (Obligations.counted s c mop stall).setCtx c { x with pc := (x.pc + 1) % 65536 }

/-- The context's pair may turn to another: round robin goes on after it, or after context 7 where it stood, and context 7 looks
for events before that unless it stopped itself (R333, R341). -/
def Obligations.yielded (s : State) (c : Ctx) : State :=
  let next : Turn := { cur := none, last := if c.slot = 7 then (s.turn c.pair).last else c.slot.val, since := s.cyc,
                       due := decide (c.slot ≠ 7) }
  { s with conc := { s.conc with turns := s.conc.turns.put c.pair.val next } }

/-- The context executes this microword, within the watchdog's limit. -/
def Obligations.mayRun (s : State) (c : Ctx) (mop : Nat) (m : Mw) (stall : Nat) : Prop :=
  s.executes c = true ∧ s.fetches c (m.word mop) = true ∧ (s.routine c).mayFetch = true ∧
    Obligations.microcycles s c mop stall ≤ 4096

/-- R336, R337, R341, R344 and R347. -/
def Obligations.ContextMicrowords : Prop :=
  ∀ (c : Ctx) (m : Mw) (s : State),
    let x := s.routine c
    let d := x.gReg m.d
    let r := x.gReg m.s
    let runs (mop : Nat) := Obligations.mayRun s c mop m 0
    let y (mop : Nat) := Obligations.ran s c mop 0
    let put (mop : Nat) (v : Word) : Context := { y mop with g := x.g.put m.d v }
    let flags (v : Word) (carry : Bool) (z : Context) : Context := { z with z := v == 0, n := bit v 31, cf := carry }
    let goOn (mop : Nat) (z : Context) := Obligations.stepped s c mop 0 z
    let mayGo := m.i < 65536 ∧ (x.inLoggia = true → 0xE010 ≤ m.i) ∧ (x.inLoggia = false → m.i < 0xE010)
    let go (mop : Nat) := (Obligations.counted s c mop 0).setCtx c { y mop with pc := m.i }
    (runs 0x00 → exec (.microNop c m) s = .next (goOn 0x00 (y 0x00))) ∧
    (runs 0x01 → exec (.movi c m) s = .next (goOn 0x01 (put 0x01 (BitVec.ofNat 32 m.i)))) ∧
    (runs 0x02 → m.i < 16384 → exec (.movhi c m) s = .next (goOn 0x02 (put 0x02 (setFld d 18 14 m.i)))) ∧
    (runs 0x03 → exec (.mov c m) s = .next (goOn 0x03 (put 0x03 r))) ∧
    (runs 0x04 → exec (.add c m) s = .next (goOn 0x04 (flags (d + r) (decide (2 ^ 32 ≤ d.toNat + r.toNat)) (put 0x04 (d + r))))) ∧
    (runs 0x05 → exec (.sub c m) s = .next (goOn 0x05 (flags (d - r) (decide (d.toNat < r.toNat)) (put 0x05 (d - r))))) ∧
    (runs 0x06 → exec (.and c m) s = .next (goOn 0x06 (put 0x06 (d &&& r)))) ∧
    (runs 0x07 → exec (.or c m) s = .next (goOn 0x07 (put 0x07 (d ||| r)))) ∧
    (runs 0x08 → exec (.xor c m) s = .next (goOn 0x08 (put 0x08 (d ^^^ r)))) ∧
    (runs 0x09 → exec (.addi c m) s =
      .next (goOn 0x09 (flags (d + m.simm) (decide (2 ^ 32 ≤ d.toNat + m.simm.toNat)) (put 0x09 (d + m.simm))))) ∧
    (runs 0x0A → m.i < 32 → exec (.shl c m) s = .next (goOn 0x0A (put 0x0A (d <<< m.i)))) ∧
    (runs 0x0B → m.i < 32 → exec (.shr c m) s = .next (goOn 0x0B (put 0x0B (d >>> m.i)))) ∧
    (runs 0x0C → m.i < 32 → exec (.sar c m) s = .next (goOn 0x0C (put 0x0C (d.sshiftRight m.i)))) ∧
    (runs 0x0D → exec (.cmp c m) s = .next (goOn 0x0D (flags (d - r) (decide (d.toNat < r.toNat)) (y 0x0D)))) ∧
    (runs 0x0E → exec (.cmpi c m) s = .next (goOn 0x0E (flags (d - m.simm) (decide (d.toNat < m.simm.toNat)) (y 0x0E)))) ∧
    (runs 0x10 → mayGo → exec (.jmp c m) s = .next (go 0x10)) ∧
    (runs 0x11 → mayGo → exec (.jz c m) s = .next (if x.z then go 0x11 else goOn 0x11 (y 0x11))) ∧
    (runs 0x12 → mayGo → exec (.jnz c m) s = .next (if x.z then goOn 0x12 (y 0x12) else go 0x12)) ∧
    (runs 0x13 → mayGo → exec (.jlt c m) s = .next (if x.n then go 0x13 else goOn 0x13 (y 0x13))) ∧
    (runs 0x14 → mayGo → exec (.jge c m) s = .next (if x.n then goOn 0x14 (y 0x14) else go 0x14)) ∧
    (runs 0x15 → x.stack.length < 8 → mayGo → exec (.call c m) s =
      .next ((Obligations.counted s c 0x15 0).setCtx c { y 0x15 with pc := m.i, stack := (x.pc + 1) % 65536 :: x.stack })) ∧
    (runs 0x15 → x.stack.length < 8 → x.inLoggia = true → m.i = 0x0104 → exec (.call c m) s =
      .next (goOn 0x15 { y 0x15 with g := (x.g.put 0 (loW s.now)).put 3 (hiW s.now) })) ∧
    (runs 0x15 → x.stack.length < 8 → x.inLoggia = true → 0x0100 ≤ m.i → m.i ≤ 0x011F → m.i ≠ 0x0104 → exec (.call c m) s =
      .next { goOn 0x15 { y 0x15 with g := x.g.put 0 (Config.serviceResult (m.i - 0x0100) s.free) } with free := s.free + 1 }) ∧
    (runs 0x16 → ∀ t rest, x.stack = t :: rest →
      exec (.ret c m) s = .next ((Obligations.counted s c 0x16 0).setCtx c { y 0x16 with pc := t, stack := rest })) ∧
    (runs 0x29 → exec (.wait c m) s =
      .next (Obligations.yielded (goOn 0x29 { y 0x29 with waiting := some (m.imm.extractLsb' 0 4) }) c)) ∧
    (∀ (k : Fin 4) mask, (s.ctx c).waiting = some mask → mask.getLsbD k.val = true → s.waitHolds c.pair k = true →
      s.pairServes c.pair.val = true → s.clk.inDeep = false →
      exec (.waitResume c k) s = .next (s.setCtx c { s.ctx c with waiting := none, ranAt := s.cyc })) ∧
    (∀ k : Fin 4, (s.ctx c).waiting = none → exec (.waitResume c k) s = .next s)

/-- R39, R337, R338, R342 and R347. -/
def Obligations.MemoryMicrowords : Prop :=
  ∀ (c : Ctx) (m : Mw) (stall : Nat) (s : State),
    let next (x : Context) : Context := { x with pc := (x.pc + 1) % 65536 }
    let cell (mop : Nat) := Obligations.counted s c mop stall
    let y (mop : Nat) := Obligations.ran s c mop stall
    let x := s.routine c
    let load (mop : Nat) (v : Word) : Context := next { y mop with g := x.g.put m.d v }
    let known (isBuf : Bool) (a : Nat) := (x.journal.reverse.find? fun e => e.isBuf == isBuf && e.addr == a).map (·.data)
    (Obligations.mayRun s c 0x18 m stall → m.d < 4 →
      exec (.lda c m) s = .next ((cell 0x18).setCtx c (next { y 0x18 with a := x.a.put m.d (x.gReg m.s) }))) ∧
    (Obligations.mayRun s c 0x19 m stall → m.s < 4 → m.i < 65536 →
      let off := (x.aReg m.s).toNat + 4 * m.i
      off ≤ 0x1FFFFF → off % 4 = 0 → (x.inLoggia = true → off / 65536 ≠ 2 ∧ off / 65536 ≠ 0x1C) →
      (∀ w, known false off = some w → exec (.rd c m stall) s = .next ((cell 0x19).setCtx c (load 0x19 w))) ∧
      (known false off = none →
        let (w, u) := (cell 0x19).readAt (mwAgent c.pair off) off
        (∀ g, x.globals.find off = some g → exec (.rd c m stall) s =
          .next (u.setCtx c (load 0x19 ((w &&& ~~~Reg.globalBits off) ||| (g &&& Reg.globalBits off))))) ∧
        (x.globals.find off = none → exec (.rd c m stall) s = .next (u.setCtx c (load 0x19 w))))) ∧
    (Obligations.mayRun s c 0x1A m stall → m.d < 4 → m.i < 65536 → x.journal.length < 16 →
      let off := (x.aReg m.d).toNat + 4 * m.i
      off ≤ 0x1FFFFF → off % 4 = 0 → (x.inLoggia = true → loggiaWrites off = true) →
      exec (.wr c m) s = .next ((cell 0x1A).setCtx c
        (next { y 0x1A with journal := x.journal ++ [{ isBuf := false, addr := off, data := x.gReg m.s }] }))) ∧
    (Obligations.mayRun s c 0x1B m stall → m.i < 16 →
      (∀ p, s.running? c = some p → exec (.rdp c m) s = .next ((cell 0x1B).setCtx c (load 0x1B (wd p.words m.i)))) ∧
      (s.running? c = none → exec (.rdp c m) s =
        .next ({ cell 0x1B with free := s.free + 1 }.setCtx c (load 0x1B (Config.freeWord s.free))))) ∧
    (Obligations.mayRun s c 0x1C m stall → m.i < 4 →
      exec (.val c m) s = .next ((cell 0x1C).setCtx c (next { y 0x1C with vals := x.vals.put m.i (x.gReg m.s) }))) ∧
    (Obligations.mayRun s c 0x1D m stall → ∀ p, Obligations.runs s c p.opc p →
      let h := x.gReg m.s
      let off := x.gReg m.d
      let n := m.i % 16384
      (∀ r, s.checkRef p.fid h off n (m.i / 16384) = some r →
        ∃ u, exec (.bwin c m stall) s = .next (Obligations.yielded u c) ∧ Obligations.refused (cell 0x1D) u c p r) ∧
      (s.checkRef p.fid h off n (m.i / 16384) = none →
        exec (.bwin c m stall) s = .next (((cell 0x1D).pin (handleKey h)).setCtx c
          (next { y 0x1D with window := some (s.refAddr h off, n), pins := x.pins ++ [handleKey h] })))) ∧
    (∀ base n, x.window = some (base, n) →
      (Obligations.mayRun s c 0x1E m stall →
        let off := (x.gReg m.s).toNat
        off + 4 ≤ n → off % 4 = 0 →
        (∀ w, known true (base + off) = some w → exec (.brd c m stall) s = .next ((cell 0x1E).setCtx c (load 0x1E w))) ∧
        (known true (base + off) = none → s.mem.poisonIn (base + off) 4 = false →
          exec (.brd c m stall) s = .next ((cell 0x1E).setCtx c (load 0x1E (s.loadW (base + off))))) ∧
        (known true (base + off) = none → s.mem.poisonIn (base + off) 4 = true →
          exec (.brd c m stall) s =
            .next ({ cell 0x1E with free := s.free + 1 }.setCtx c (load 0x1E (Config.freeWord s.free))))) ∧
      (Obligations.mayRun s c 0x1F m stall → x.journal.length < 16 →
        let off := (x.gReg m.d).toNat
        off + 4 ≤ n → off % 4 = 0 →
        exec (.bwr c m) s = .next ((cell 0x1F).setCtx c
          (next { y 0x1F with journal := x.journal ++ [{ isBuf := true, addr := base + off, data := x.gReg m.s }] })))) ∧
    (Obligations.mayRun s c 0x20 m stall →
      exec (.lrd c m) s = .next ((cell 0x20).setCtx c (load 0x20 (x.scratch.get (fld (x.gReg m.s) 0 10) 0)))) ∧
    (Obligations.mayRun s c 0x21 m stall →
      exec (.lwr c m) s = .next ((cell 0x21).setCtx c
        (next { y 0x21 with scratch := x.scratch.put (fld (x.gReg m.d) 0 10) (x.gReg m.s) })))

/-- The buffer words of a journal in memory, in order (R339 phase 1). -/
def Obligations.bufWrites (s : State) (j : List JEntry) : State :=
  (j.filter fun e => e.isBuf).foldl (fun u e => u.store e.addr (bytesOfWords [e.data])) s

/-- The data of a register write, with the RW fields that the other pair's keystone of this cycle wrote to that register for a packet
fetched later (R339). -/
def Obligations.keyed (s : State) (c : Ctx) (x : Context) (off : Nat) (w : Word) : Word :=
  match s.conc.keyed.find (1 - c.pair.val), x.packet with
  | some k, some id =>
    if k.cycle = s.cyc ∧ id < k.packet then
      match k.writes.reverse.find? fun e => e.1 == off with
      | some e => (w &&& ~~~Reg.rwMask off) ||| (e.2 &&& Reg.rwMask off)
      | none => w
    else w
  | _, _ => w

/-- The register writes of a journal, made by the pair's processor (R339 phase 2). -/
def Obligations.regWrites (s : State) (c : Ctx) (j : List JEntry) (data : Nat → Word → Word) : State :=
  (j.filter fun e => e.isBuf = false).foldl (fun u e => u.writeAt (mwAgent c.pair e.addr) e.addr (data e.addr e.data)) s

/-- `t` is `s` after the keystone of context `c`, which is `x`. -/
def Obligations.keystone (s t : State) (c : Ctx) (x : Context) : Prop :=
  let u := Obligations.regWrites (Obligations.bufWrites s x.journal) c x.journal (Obligations.keyed s c x)
  t.ctx c = { u.ctx c with journal := [], lastKey := x.pc, watchdog := 0 } ∧ (∀ d, d ≠ c → t.ctx d = u.ctx d) ∧
  t.conc.keyed = (match x.packet, (x.journal.filter fun e => e.isBuf = false).map fun e => (e.addr, e.data) with
    | some id, o :: os => u.conc.keyed.put c.pair.val { cycle := u.cyc, packet := id, writes := o :: os }
    | _, _ => u.conc.keyed) ∧
  t = { u with conc := { u.conc with ctxs := t.conc.ctxs, keyed := t.conc.keyed } }

/-- The completions held once a packet that is no frame has ended outside a refusal: an ENC_FRAME's takes its place as a crossing's (R23, R28). -/
def Obligations.crossedHeld (s : State) (p : Packet) (status : Nat) (vals : List Word) : List Completion :=
  let cs := Obligations.answer s p status 0 vals
  if p.opc = 0x20 then cs.foldl (fun h d => holdCompletion { d with crossedAt := some s.cyc } h) s.qs.held else s.qs.held ++ cs

/-- The sessions once such a packet has ended: an ENC_FRAME's crosses empty, its attachment and its place in R157's count consumed,
and the bank of before the crossing kept for its cycle (R23, R25, R135). -/
def Obligations.crossedEmpty (s t : State) (p : Packet) (status : Nat) : Prop :=
  ∀ i, t.session i = if s.crossesAlone p = true ∧ i = p.sessField then
      let x := (s.session i).keepBank s.cyc
      let y := x.crossEmpty { Frame.ofPacket p 0 false with rates := x.steps } s.now status p.tag
      { y with hint := none, encSeq := y.encSeq + 1 }
    else s.session i

/-- R23, R69, R77, R84, R333, R339, R340, R345 and R347. -/
def Obligations.KeystoneMicrowords : Prop :=
  ∀ (c : Ctx) (m : Mw) (stall : Nat) (s : State),
    let x := s.routine c
    let cell (mop : Nat) := Obligations.counted s c mop stall
    let st := m.i % 256
    let refuses := (0x10 ≤ st ∧ st ≤ 0x18) ∨ st = 0x30
    (Obligations.mayRun s c 0x28 m stall →
      ∃ k, Obligations.keystone (cell 0x28) k c x ∧ exec (.key c m stall) s =
        .next (Obligations.yielded (k.setCtx c { k.ctx c with pc := ((k.ctx c).pc + 1) % 65536 }) c)) ∧
    (∀ p, Obligations.mayRun s c 0x2A m stall → Obligations.runs s c p.opc p → (x.inLoggia = true → loggiaStatus st = true) →
      statusKnown st = true →
      (x.loggia = true → (s.loggiaAttr p.opc).getLsbD 1 = true → s.portHolds0 (portOf p.fid) = false →
        ∃ u, exec (.done c m stall) s = .next (Obligations.yielded u c) ∧ Obligations.refused (cell 0x2A) u c p ⟨0x17, 0x0708, 0⟩) ∧
      (x.loggia = false ∨ (s.loggiaAttr p.opc).getLsbD 1 = false ∨ s.portHolds0 (portOf p.fid) = true →
        (∀ e ∈ x.journal, e.isBuf = true) →
        let word (v : Word) := if refuses ∧ (v.toNat ≤ 11 ∨ (v = 0xFF ∧ st = 0x15)) then v else 0
        let vals := if st < 0x10 then (List.range 4).map fun i => x.vals.get i 0 else [0, word (x.vals.get 1 0), 0, 0]
        (p.opc ≠ 0x20 ∨ refuses →
          ∃ t, exec (.done c m stall) s = .next (Obligations.yielded t c) ∧
            t.mem = Obligations.dismissed (Obligations.bufWrites s x.journal) p ∧
            Obligations.completesAt (cell 0x2A) t c p st (if refuses then fld (x.gReg m.s) 0 16 else 0) vals s.qs.keyAt ∧
            Obligations.bufsKept s t ∧ t = { cell 0x2A with qs := t.qs, conc := t.conc, bpm := t.bpm, mem := t.mem }) ∧
        (p.opc = 0x20 → ¬ refuses →
          ∃ t, exec (.done c m stall) s = .next (Obligations.yielded t c) ∧
            t.mem = (Obligations.bufWrites s x.journal).mem ∧ Obligations.crossedEmpty s t p st ∧
            t.qs = { s.qs with held := Obligations.crossedHeld s p st vals,
                               packets := s.qs.packets.filter fun q => q.id != p.id } ∧
            t.ctx c = Context.reset ∧ (∀ d, d ≠ c → t.ctx d = s.ctx d) ∧ Obligations.bufsKept s t ∧
            t = { cell 0x2A with qs := t.qs, conc := t.conc, bpm := t.bpm, mem := t.mem, sess := t.sess }))) ∧
    (Obligations.mayRun s c 0x2A m stall → x.packet = none → (x.inLoggia = true → loggiaStatus st = true) →
      ∃ k t, Obligations.keystone (cell 0x2A) k c x ∧ exec (.done c m stall) s = .next (Obligations.yielded t c) ∧
        t.ctx c = Context.reset ∧ (∀ d, d ≠ c → t.ctx d = k.ctx d) ∧ Obligations.bufsKept k t ∧
        t = { k with conc := { k.conc with ctxs := t.conc.ctxs }, bpm := t.bpm }) ∧
    (∀ p, Obligations.mayRun s c 0x2B m stall → s.running? c = some p → x.inLoggia = false →
      p.opc = 0x20 ∨ p.opc = 0x30 ∨ p.opc = 0x32 →
      ∃ k u, Obligations.keystone (cell 0x2B) k c x ∧
        exec (.hand c m stall) s = .next (if u.ctxReady c then u else Obligations.yielded u c) ∧
        (p.opc = 0x20 → exec (.encFrame c) k = .next u) ∧
        (p.opc = 0x30 → exec (.decData c [⟨.picture, true, (p.p 2).toNat⟩]) k = .next u) ∧
        (p.opc = 0x32 → exec (.decBurst c (List.replicate (p.p 3).toNat [⟨.picture, true, 0⟩])) k = .next u)) ∧
    (∀ p, Obligations.mayRun s c 0x2B m stall → Obligations.runs s c 0x20 p → x.inLoggia = false → x.journal = [] →
      let k := (cell 0x2B).setCtx c { (cell 0x2B).ctx c with journal := [], lastKey := x.pc, watchdog := 0 }
      let z := s.session p.sessField
      firstRefusal (k.encFrameChecks p) = none → z.drop = false → (∀ f ∈ s.span.frames, f.packet ≠ p.id) →
      ∃ t, exec (.hand c m stall) s = .next t ∧
        (∃ f ∈ t.span.frames, f.id = p.id * 4096 ∧ f.sess = p.sessField ∧ f.decode = false ∧ f.stage = .waiting ∧
          f.deadline = p.deadline ∧ f.encSeq = z.encSeq) ∧
        t.packet? p.id = some { p with state := .frame } ∧ t.ctx c = Context.reset ∧ (∀ d, d ≠ c → t.ctx d = s.ctx d) ∧
        (t.session p.sessField).encSeq = z.encSeq + 1 ∧ t.qs.held = s.qs.held ∧ t.mem = s.mem) ∧
    ((s.ctx c).loggia = false → exec (.loggiaCustom c) s = .next s) ∧ (s.executes c = false → exec (.loggiaCustom c) s = .next s) ∧
    ((s.ctx c).loggia = true → s.executes c = true →
      let w := s.storeWord (s.ctx c).pc
      let opens := (s.ctx c).journal.any fun e => e.isBuf
      let u := if opens then { s with free := s.free + 1 } else s
      let k := if opens then (Config.freeWord s.free).toNat else 0
      (fld w 26 6 = 0x28 → ∃ t, exec (.loggiaCustom c) s = .next t ∧ exec (.key c (mwOf w) k) u = .next t) ∧
      (fld w 26 6 = 0x29 → ∃ t, exec (.loggiaCustom c) s = .next t ∧ exec (.wait c (mwOf w)) s = .next t) ∧
      (fld w 26 6 = 0x2A → (∃ p, Obligations.runs s c p.opc p) →
        ∃ t, exec (.loggiaCustom c) s = .next t ∧ exec (.done c (mwOf w) k) u = .next t))

/-- The context's packet has ended for `cause`: completion, LAST_ABORT, context; an ENC_FRAME ends in an empty crossing where it
is ABORTED (R23); memory, other sessions and other contexts stay. -/
def Obligations.ended (s t : State) (c : Ctx) (p : Packet) (cause status reason : Nat) : Prop :=
  let vals : List Word := [loW (s.ctx c).lastKey, 0, 0, 0]
  t.qs = { s.qs with held := if status = 0x20 then Obligations.crossedHeld s p 0x20 vals
                             else s.qs.held ++ Obligations.answer s p status reason vals,
                     packets := s.qs.packets.filter fun q => q.id != p.id } ∧
  t.ctx c = Context.reset ∧ (∀ d, d ≠ c → t.ctx d = s.ctx d) ∧
  t.reg Reg.lastAbort = at_ 16 ((s.ctx c).lastKey % 65536) ||| at_ 8 p.opc ||| at_ 0 cause ∧
  (status = 0x20 → Obligations.crossedEmpty s t p 0x20) ∧ (status ≠ 0x20 → ∀ i, t.session i = s.session i) ∧
  Obligations.bufsKept s t ∧ t.mem = Obligations.dismissed s p ∧ t.span = s.span ∧ t.flows = s.flows ∧ t.sem = s.sem ∧ t.mbx = s.mbx

/-- Microwords that are illegal in this context: command, MOP, condition (R336–R338, R344). -/
def Obligations.illegalTable (c : Ctx) (m : Mw) (x : Context) (p : Packet) : List (Instr × Nat × Prop) :=
  let off (a : Nat) := (x.aReg a).toNat + 4 * m.i
  let badOff (a : Nat) := 4 ≤ a ∨ 65536 ≤ m.i ∨ 0x1FFFFF < off a ∨ off a % 4 ≠ 0
  let outside (o : Nat) := x.window = none ∨ ∃ b n, x.window = some (b, n) ∧ (n < o + 4 ∨ o % 4 ≠ 0)
  let badJump := 65536 ≤ m.i ∨ (x.inLoggia = false ∧ 0xE010 ≤ m.i)
  [(.movhi c m, 0x02, 16384 ≤ m.i), (.shl c m, 0x0A, 32 ≤ m.i), (.shr c m, 0x0B, 32 ≤ m.i), (.sar c m, 0x0C, 32 ≤ m.i),
   (.jmp c m, 0x10, badJump), (.jz c m, 0x11, badJump), (.jnz c m, 0x12, badJump), (.jlt c m, 0x13, badJump),
   (.jge c m, 0x14, badJump), (.call c m, 0x15, badJump ∨ 8 ≤ x.stack.length), (.ret c m, 0x16, x.stack = []),
   (.lda c m, 0x18, 4 ≤ m.d), (.rd c m 0, 0x19, badOff m.s),
   (.wr c m, 0x1A, badOff m.d ∨ ((x.inLoggia = true → loggiaWrites (off m.d) = true) ∧ 16 ≤ x.journal.length)),
   (.rdp c m, 0x1B, 16 ≤ m.i), (.val c m, 0x1C, 4 ≤ m.i), (.brd c m 0, 0x1E, outside (x.gReg m.s).toNat),
   (.bwr c m, 0x1F, outside (x.gReg m.d).toNat ∨ 16 ≤ x.journal.length),
   (.done c m 0, 0x2A, x.inLoggia = false ∧ statusKnown (m.i % 256) = false),
   (.hand c m 0, 0x2B, x.inLoggia = false ∧ p.opc ≠ 0x20 ∧ p.opc ≠ 0x30 ∧ p.opc ≠ 0x32)]

/-- Breaches of the Loggia's limits in this context (R347). -/
def Obligations.breachTable (c : Ctx) (m : Mw) (x : Context) : List (Instr × Nat × Prop) :=
  let off (a : Nat) := (x.aReg a).toNat + 4 * m.i
  let goodOff (a : Nat) := a < 4 ∧ m.i < 65536 ∧ off a ≤ 0x1FFFFF ∧ off a % 4 = 0
  let outside := m.i < 0xE010
  [(.jmp c m, 0x10, outside), (.jz c m, 0x11, outside), (.jnz c m, 0x12, outside), (.jlt c m, 0x13, outside), (.jge c m, 0x14, outside),
   (.call c m, 0x15, x.stack.length < 8 ∧ (m.i < 0x0100 ∨ 0x011F < m.i) ∧ outside),
   (.rd c m 0, 0x19, goodOff m.s ∧ (off m.s / 65536 = 2 ∨ off m.s / 65536 = 0x1C)),
   (.wr c m, 0x1A, goodOff m.d ∧ ¬ (off m.d / 65536 = 4 ∧ Reg.assigned (off m.d) = true) ∧
     ¬ Reg.within (off m.d) (Reg.semLock 1) 63 ∧ off m.d ≠ Reg.srcPendSet),
   (.done c m 0, 0x2A, m.i % 256 ≠ 0 ∧ (m.i % 256 < 0x10 ∨ 0x18 < m.i % 256)), (.hand c m 0, 0x2B, True)]

/-- R335, R343 and R347. -/
def Obligations.MicrowordFaults : Prop :=
  (∀ (c : Ctx) (m : Mw) (p : Packet) (s : State), ∀ row ∈ Obligations.illegalTable c m (s.ctx c) p,
    s.executes c = false → exec row.1 s = .next s) ∧
  (∀ (c : Ctx) (m : Mw) (s : State) (p : Packet), Obligations.runs s c p.opc p →
    let x := s.ctx c
    let may (mop : Nat) := s.executes c = true ∧ s.fetches c (m.word mop) = true
    (x.inLoggia = false → s.classOf (reportOf (0x0500 + c.pair.val) 0x0502 none) = 1) →
    (x.inLoggia = true → s.classOf { Report.of (0x0500 + c.pair.val) 0x0503 with reaction := 2 } ≤ 1) →
    (∀ row ∈ Obligations.illegalTable c m x p,
      (row.2.2 → Obligations.mayRun s c row.2.1 m 0 → ∃ t, exec row.1 s = .next t ∧ Obligations.ended s t c p 2 0x20 0) ∧
      (may row.2.1 → x.mayFetch = false → x.watchdog < 4096 →
        ∃ t, exec row.1 s = .next t ∧ Obligations.ended s t c p 2 0x20 0) ∧
      (may row.2.1 → 4096 ≤ x.watchdog → ∃ t, exec row.1 s = .next t ∧ Obligations.ended s t c p 1 0x20 0)) ∧
    (x.inLoggia = true → ∀ row ∈ Obligations.breachTable c m x, row.2.2 → Obligations.mayRun s c row.2.1 m 0 →
      ∃ t, exec row.1 s = .next t ∧ Obligations.ended s t c p 4 0x16 0x0608) ∧
    (x.waiting = none → s.pairServes c.pair.val = true → s.inGf = false → s.clk.inDeep = false → 4096 < s.watchCount c →
      ∃ t, exec (.watchdogExpiry c) s = .next t ∧ Obligations.ended s t c p 1 0x20 0) ∧
    (s.watchCount c ≤ 4096 → exec (.watchdogExpiry c) s = .next s)) ∧
  (∀ (n : Fin 2) (s : State), s.pairState n.val = 1 → s.inGf = false → s.clk.inDeep = false →
    s.classOf (reportOf (0x0500 + n.val) 0x0501 none) = 1 → (∀ c p, s.running? c = some p → p.state = .running c) →
    ∃ t, exec (.pairMismatch n) s = .next t ∧ t.pairState n.val = 2 ∧ t.pairState (1 - n.val) = s.pairState (1 - n.val) ∧
      (∀ c : Ctx, c.pair = n → t.ctx c = Context.reset ∧
        ∀ p, s.running? c = some p → t.packet? p.id = none ∧
          ∀ d ∈ Obligations.answer s p 0x20 0 [loW (s.ctx c).lastKey, 0, 0, 0],
            { d with crossedAt := if p.opc = 0x20 then some s.cyc else none } ∈ t.qs.held) ∧
      (∀ c : Ctx, c.pair ≠ n → t.ctx c = s.ctx c) ∧
      (∀ k, k < 64 → t.holder k = if s.holder k = 0x81 + 2 * n.val then 0 else s.holder k) ∧ t.mem.cells = s.mem.cells ∧
      (∀ i, (∀ c p, c.pair = n → s.running? c = some p → p.opc = 0x20 → p.sessField ≠ i) → t.session i = s.session i)) ∧
  (∀ (n : Fin 2) (pass : Bool) (s : State), s.inGf = false →
    (s.pairState n.val ≠ 2 → exec (.pairSelfTestEnd n pass) s = .next s) ∧
    (s.pairState n.val = 2 → ∃ t, exec (.pairSelfTestEnd n pass) s = .next t ∧
      t.pairState n.val = (if pass then 1 else 3) ∧ t.pairState (1 - n.val) = s.pairState (1 - n.val) ∧
      (∀ o, o ≠ Reg.concStatus → t.reg o = s.reg o) ∧ t = { s with regs := t.regs, fc := { s.fc with hist := t.fc.hist } }))

/-- Channel `c` with its running kick ended, in state `st`, `rest` behind it. -/
def Obligations.kickEnded (c : Channel) (st : Nat) (rest : List Nat) : Channel :=
  { c with state := st, kicks := rest, xfer := none, trig := none, left := 0, bytes := 0, stopping := false, pins := [] }

/-- The only kick of channel `n`, packet `p`, completes; other channels, memory, sessions and flows keep what they have. -/
def Obligations.kickDone (s t : State) (n : Nat) (p : Packet) (status reason : Nat) (vals : List Word) : Prop :=
  t.qs = { s.qs with held := s.qs.held ++ Obligations.answer s p status reason vals,
                     packets := s.qs.packets.filter fun q => q.id != p.id } ∧
  (∀ m, m ≠ n → t.chan m = s.chan m) ∧ Obligations.bufsKept s t ∧
  t = { s with qs := t.qs, dma := t.dma, bpm := t.bpm, clk := { s.clk with quietSince := s.now }, regs := t.regs,
               fresh := t.fresh, freshAt := t.freshAt, ic := t.ic, fc := { s.fc with hist := t.fc.hist } }

/-- `p` is the packet of the only kick of channel `n`. -/
def Obligations.onlyKick (s : State) (n : Nat) (p : Packet) : Prop :=
  (s.chan n).kicks = [p.id] ∧ s.packet? p.id = some p ∧ p.state = .kick n ∧ p.opc = 0x60

/-- R298–R309. -/
def Obligations.ChannelTransfers : Prop :=
  (∀ s : State, s.inGf = false → (s.dma.map (·.1)).Nodup →
    let ready := (s.dma.filter fun e => s.segReady e.2).map (·.1)
    let limit := max 1 (s.regF Reg.dmaArbCfg 0 8)
    let starved := ready.filter fun m => decide (limit ≤ (s.chan m).starve)
    (ready = [] → exec .channelArbiterDecision s = .next s) ∧
    (ready ≠ [] → ∃ t n x, exec .channelArbiterDecision s = .next t ∧ n ∈ ready ∧ (s.chan n).xfer = some x ∧
      (starved = [] → (∀ m ∈ ready, (s.chan m).prio < (s.chan n).prio ∨ ((s.chan m).prio = (s.chan n).prio ∧
        ((s.chan m).starve < (s.chan n).starve ∨ ((s.chan m).starve = (s.chan n).starve ∧ n ≤ m)))) ∧ t.ic = s.ic) ∧
      (starved ≠ [] → n ∈ starved ∧ (∀ m ∈ starved, (s.chan m).starve < (s.chan n).starve ∨
        ((s.chan m).starve = (s.chan n).starve ∧ n ≤ m)) ∧ t.regB Reg.dmaArbCfg 31 = true ∧
        t.regF Reg.dmaArbCfg 16 6 = n % 64 ∧ t.regF Reg.dmaArbCfg 22 2 = n / 64 % 4 ∧ t.ic = (s.raise 963).ic) ∧
      t.chan n = { s.chan n with starve := 0, xfer := some { x with issued := x.issued + min (4096 - (x.src + x.issued) % 4096) (x.len - x.issued) } } ∧
      (∀ m ∈ ready, m ≠ n → t.chan m = { s.chan m with starve := (s.chan m).starve + 1 }) ∧
      (∀ m, m ∉ ready → t.chan m = s.chan m) ∧
      t.regF Reg.stagePeak 0 11 = max (s.regF Reg.stagePeak 0 11) t.stageUsed % 2048 ∧
      t.out = s.out ++ (if x.srcBus ∧ s.ideDrops (portOf (s.chan n).owner) .device = false then [.busRead (s.chan n).owner (x.src + x.issued)
        (min (4096 - (x.src + x.issued) % 4096) (x.len - x.issued))] else []) ∧
      (∀ o, o ≠ Reg.dmaArbCfg → o ≠ Reg.stagePeak → t.reg o = s.reg o) ∧
      t = { s with dma := t.dma, regs := t.regs, ic := t.ic, out := t.out, fresh := t.fresh, freshAt := t.freshAt })) ∧
  (∀ (ch : Fin 256) (data : List Byte) (s : State) (x : Xfer), (s.chan ch.val).xfer = some x → x.written < x.issued →
    (s.chan ch.val).stopping = false →
    let c := s.chan ch.val
    let len := min (4096 - (x.src + x.written) % 4096) (x.len - x.written)
    (x.srcBus = true → data.length ≠ len → exec (.segmentReturn ch data) s = .next s) ∧
    (x.srcBus = false → s.mem.poisonIn (x.src + x.written) len = true →
      exec (.segmentReturn ch data) s = exec (.busError ch true) s) ∧
    (∀ bs, (x.srcBus = true ∧ data.length = len ∧ bs = data) ∨
        (x.srcBus = false ∧ s.mem.poisonIn (x.src + x.written) len = false ∧ bs = s.mem.readN (x.src + x.written) len) →
      ∃ t, exec (.segmentReturn ch data) s = .next t ∧
        t.chan ch.val = { c with retried := 0, xfer := some { x with written := x.written + len } } ∧
        (∀ m, m ≠ ch.val → t.chan m = s.chan m) ∧
        (x.dstBus = true → t.mem = s.mem ∧ t.out = s.out ++ (if s.ideDrops (portOf c.owner) .device then []
          else Obligations.busWrites c.owner (x.dst + x.written) bs ++
            (if (x.barrier ∨ c.left ≤ 1) ∧ x.written + len = x.len then [.flushRead c.owner (x.dst + x.len - 1)] else []))) ∧
        (x.dstBus = false → t.out = s.out ∧ t.mem = s.mem.store (x.dst + x.written) bs) ∧
        t = { s with dma := t.dma, mem := t.mem, out := t.out, regs := t.regs })) ∧
  (∀ (ch : Fin 256) (s : State), s.inGf = false → (s.chan ch.val).state = 1 → (s.chan ch.val).xfer = none →
    (s.chan ch.val).stopping = false → (s.chan ch.val).left ≠ 0 →
    let c := s.chan ch.val
    let d := s.loadWs c.desc 8
    let whole := c.desc + 32 ≤ s.bufAddr c.descBuf + poolSize (c.descBuf / 131072)
    (whole → dChain d = false → s.transferFault c.owner d = none →
      let waits := dTrigSrc d = 1 ∨ (dTrigSrc d = 2 ∧ s.countReached (dTrigId d) (wd d 6).toNat = false)
      ∃ t x, exec (.descriptorLoad ch) s = .next t ∧
        (waits → t.chan ch.val = { c with desc := c.desc + 32, links := 0, xfer := some x, state := 2, trig := some (dTrigSrc d, dTrigId d, (wd d 6).toNat) }) ∧
        (¬ waits → t.chan ch.val = { c with desc := c.desc + 32, links := 0, xfer := some x, state := 1, trig := none }) ∧
        x.len = dLen d ∧ x.issued = 0 ∧ x.written = 0 ∧ x.barrier = dBarrier d ∧ x.irq = dIrq d ∧
        x.srcBus = (dSrcKind d == 1) ∧ x.dstBus = (dDstKind d == 1) ∧
        x.src = (if dSrcKind d = 1 then pair64 (wd d 3) (wd d 2) else s.refAddr (wd d 2) (wd d 3)) ∧
        x.dst = (if dDstKind d = 1 then pair64 (wd d 5) (wd d 4) else s.refAddr (wd d 4) (wd d 5)) ∧
        (∀ m, m ≠ ch.val → t.chan m = s.chan m) ∧ Obligations.bufsKept s t ∧ t = { s with dma := t.dma, bpm := t.bpm }) ∧
    (whole → dChain d = true → linkOk d = true → c.links < 63 → s.checkRef c.owner (wd d 2) (wd d 3) 32 1 = none →
      ∃ t, exec (.descriptorLoad ch) s = .next t ∧
        t.chan ch.val = { c with desc := s.refAddr (wd d 2) (wd d 3), descBuf := handleKey (wd d 2), links := c.links + 1, pins := handleKey (wd d 2) :: c.pins } ∧
        (∀ m, m ≠ ch.val → t.chan m = s.chan m) ∧ Obligations.bufsKept s t ∧ t = { s with dma := t.dma, bpm := t.bpm }) ∧
    (∀ p cause r, Obligations.onlyKick s ch.val p →
      (¬ whole ∧ cause = 2 ∧ r = badParam 0x0301 1) ∨ (whole ∧ dChain d = false ∧ s.transferFault c.owner d = some r ∧ cause = 2) ∨
        (whole ∧ dChain d = true ∧ linkOk d = false ∧ cause = 2 ∧ r = badParam 0x0301 1) ∨
        (whole ∧ dChain d = true ∧ linkOk d = true ∧ 63 ≤ c.links ∧ cause = 3 ∧ r = badParam 0x0301 1) ∨
        (whole ∧ dChain d = true ∧ linkOk d = true ∧ c.links < 63 ∧ s.checkRef c.owner (wd d 2) (wd d 3) 32 1 = some r ∧
          cause = 2) →
      ∃ t, exec (.descriptorLoad ch) s = .next t ∧
        t.chan ch.val = Obligations.kickEnded { c with haltCause := cause, haltReason := r.reason } 3 [] ∧
        Obligations.kickDone s t ch.val p r.status r.reason [0, loW r.v1, 0, 0] ∧ t.ic = (s.raise (512 + ch.val)).ic)) ∧
  (∀ (ch : Fin 256) (fromMemory : Bool) (s : State),
    let c := s.chan ch.val
    let count := s.regF Reg.chRetry 0 4
    let fault := s.chanReport ch.val (if fromMemory then 0x0602 else 0x0601) 2
    (c.inFlight = false → s.twin fault = none → exec (.busError ch fromMemory) s = .next s) ∧
    (c.inFlight = true → c.retried < count → ∃ t, exec (.busError ch fromMemory) s = .next t ∧
      t.chan ch.val = { c with retried := c.retried + 1 } ∧ (∀ m, m ≠ ch.val → t.chan m = s.chan m) ∧
      t.out = s.out ++ (match c.xfer with
        | some x => if x.srcBus ∧ fromMemory = false ∧ x.written < x.len ∧ s.ideDrops (portOf c.owner) .device = false
            then [.busRead c.owner (x.src + x.written) (min (4096 - (x.src + x.written) % 4096) (x.len - x.written))] else []
        | none => []) ∧
      (t.reg Reg.retries).toNat = min ((s.reg Reg.retries).toNat + 1) (2 ^ 32 - 1) ∧
      t = { s with dma := t.dma, regs := t.regs, out := t.out }) ∧
    (∀ p, c.inFlight = true → count ≤ c.retried → Obligations.onlyKick s ch.val p →
      s.classOf fault = 1 →
      ∃ t, exec (.busError ch fromMemory) s = .next t ∧
        t.chan ch.val = Obligations.kickEnded { c with haltCause := 1, haltReason := 0, retriesUsed := count, retried := 0 } 3 [] ∧
        Obligations.kickDone s t ch.val p 0x20 0 [0, 0, 0, 0])) ∧
  (∀ (ch : Fin 256) (s : State) (x : Xfer), (s.chan ch.val).xfer = some x → x.written < x.issued → x.written < x.len →
    s.classOf (s.chanReport ch.val 0x0603 0) = 1 →
    ∃ t, exec (.stagingParityError ch) s = .next t ∧ t.dma = s.dma ∧ t.mem = s.mem ∧ t.qs = s.qs ∧
      (x.srcBus = false ∨ s.inGf = true ∨ s.ideDrops (portOf (s.chan ch.val).owner) .device = true → t.out = s.out) ∧
      (x.srcBus = true → s.inGf = false → s.ideDrops (portOf (s.chan ch.val).owner) .device = false → t.out = s.out ++
        [.busRead (s.chan ch.val).owner (x.src + x.written) (min (4096 - (x.src + x.written) % 4096) (x.len - x.written))])) ∧
  (∀ (ch : Fin 256) (s : State) (x : Xfer), (s.chan ch.val).xfer = some x → x.len ≤ x.written → (s.chan ch.val).state = 1 →
    let c := s.chan ch.val
    let idx := (c.descIndex + 1) % 65536
    let after := { c with xfer := none, descIndex := idx, doneTotal := (c.doneTotal + 1) % 2 ^ 32, left := c.left - 1, bytes := c.bytes + x.len }
    ∃ t, exec (.transferComplete ch) s = .next t ∧ Obligations.bufsKept s t ∧ t.regs = s.regs ∧ t.sess = s.sess ∧
      t.flows = s.flows ∧ t.out = s.out ∧
      t.ic = (if x.irq then (s.raise (512 + ch.val)).ic else s.ic) ∧
      (∀ m, m ≠ ch.val → t.chan m =
        (if (s.chan m).state = 2 ∧ (match (s.chan m).trig with | some (2, k, n) => t.countReached k n | _ => false) = true
         then { s.chan m with state := 1, trig := none } else s.chan m)) ∧
      (2 ≤ c.left → t.chan ch.val = after ∧ t.qs = s.qs ∧ t = { s with dma := t.dma, bpm := t.bpm, ic := t.ic }) ∧
      (∀ p, c.left ≤ 1 → Obligations.onlyKick s ch.val p →
        t.chan ch.val = Obligations.kickEnded after 0 [] ∧
        t.qs = { s.qs with
          held := s.qs.held ++ Obligations.answer s p 0 0 [loW idx, loW (c.bytes + x.len), hiW (c.bytes + x.len), 0],
          packets := s.qs.packets.filter fun q => q.id != p.id } ∧ t.mem = s.mem)) ∧
  (∀ (a : Agent) (v : Word) (s : State), s.live a = true → s.admits a Reg.chCmd = true →
    let n := fld (s.window a.code Reg.chSel).sel 0 8
    let c := s.chan n
    (bit v 31 = true ∨ bit v 30 = true → c.assigned = false ∨ a.fid? ≠ some c.owner →
      exec (.clear a v) s = .next (s.protoEventA a Reg.chCmd) ∧ exec (.stop a v) s = .next (s.protoEventA a Reg.chCmd)) ∧
    (c.assigned = true → a.fid? = some c.owner → bit v 31 = true → bit v 30 = false →
      (c.state = 3 → exec (.clear a v) s = .next (s.setChan n { c with state := 0, haltCause := 0, haltReason := 0 })) ∧
      (c.state ≠ 3 → exec (.clear a v) s = .next s)) ∧
    (c.assigned = true → a.fid? = some c.owner → bit v 31 = false → bit v 30 = true →
      (c.state ≠ 1 → c.state ≠ 2 → exec (.stop a v) s = .next s) ∧
      (c.state = 1 ∨ c.state = 2 → c.inFlight = true → exec (.stop a v) s = .next (s.setChan n { c with stopping := true })) ∧
      (∀ p, c.state = 1 ∨ c.state = 2 → c.inFlight = false → Obligations.onlyKick s n p →
        ∃ t, exec (.stop a v) s = .next t ∧ t.chan n = Obligations.kickEnded c 0 [] ∧
          Obligations.kickDone s t n p 0x20 0 [0, 0, 0, 0])))

/-- `f` is the frame that R115 and R118 choose among the eligible frames where no slot claims the group. -/
def Obligations.chosen (s : State) (es : List Frame) (f : Frame) : Prop :=
  let starved := es.filter fun g => decide (s.schedLimit ≤ g.starve)
  let placed := es.filter fun g => g.placed
  let prio (g : Frame) := (s.session g.sess).prio
  f ∈ es ∧ (starved ≠ [] → f ∈ starved ∧ ∀ g ∈ starved, f.id ≤ g.id) ∧
  (starved = [] → placed ≠ [] → f ∈ placed ∧ ∀ g ∈ placed, f.id ≤ g.id) ∧
  (starved = [] → placed = [] → ∀ g ∈ es, prio g < prio f ∨
    (prio g = prio f ∧ (f.finish < g.finish ∨ (f.finish = g.finish ∧ f.sess ≤ g.sess))))

/-- The session's home group has granted `f`, and the other eligible frames have lost a decision. -/
def Obligations.granted (s t : State) (es : List Frame) (f : Frame) (slotEnd : Option Nat) : Prop :=
  let x := s.session f.sess
  let home := x.home.getD (0, 0)
  let key := groupKey f.kind home.1 home.2
  (∃ g ∈ t.span.frames, g.id = f.id ∧ g.sess = f.sess ∧ g.stage = .granted ∧ g.group = home ∧ g.slotEnd = slotEnd ∧
    (f.decode = false → g.num = s.nextNumber f.sess ∧ g.intraCause = s.intraCause f ∧ g.intra = (s.intraCause f != 0))) ∧
  t.group key = { s.group key with vtime := f.finish, holder := some f.id } ∧ (∀ j, j ≠ key → t.group j = s.group j) ∧
  (∀ h ∈ es, h.id ≠ f.id → { h with starve := h.starve + 1 } ∈ t.span.frames) ∧
  (∀ h ∈ s.span.frames, h.id ≠ f.id → h ∉ es → h ∈ t.span.frames) ∧
  (∀ i, i ≠ f.sess → t.session i = s.session i) ∧ (f.decode = true → t.session f.sess = x) ∧
  t.span.claims = s.span.claims.filter (fun c => c.frame != f.id) ∧
  t.span.served = (match slotEnd with | some e => s.span.served ++ [(f.sess, e)] | none => s.span.served) ∧
  (f.decode = false → t.session f.sess = { x with stepMem := x.startRates f, nextIntra := (t.session f.sess).nextIntra, plan := (t.session f.sess).plan, anchor := (t.session f.sess).anchor }) ∧
  (t.regB Reg.schedCfg 31 = true ↔ s.regB Reg.schedCfg 31 = true ∨ ∃ h ∈ es, h.id ≠ f.id ∧ h.starve + 1 = s.schedLimit) ∧
  (∀ o, o ≠ Reg.schedCfg → t.reg o = s.reg o) ∧ (f.decode = false ∨ f.pitch = 0 → t.out = s.out) ∧
  t = { s with span := t.span, sess := t.sess, regs := t.regs, fresh := t.fresh, freshAt := t.freshAt, ic := t.ic,
               out := t.out, free := s.free + 1 }

/-- The completion of a packet whose frame crosses now (R28). -/
def Obligations.crossed (s : State) (p : Packet) (status reason : Nat) (vals : List Word) : List Completion :=
  (Obligations.answer s p status reason vals).map fun d => { d with crossedAt := some s.cyc }

/-- R107 and R111–R118, and R229 for a burst's next row. -/
def Obligations.SlotsAndDecisions : Prop :=
  (∀ (a : Agent) (v : Word) (s : State), s.live a = true → s.admits a Reg.slotCtrl = true → bit v 28 = false →
    let bank := fld (s.reg Reg.slotSel) 6 1
    let n := fld (s.reg Reg.slotSel) 0 6
    let w := [s.reg (Reg.slotData 0), s.reg (Reg.slotData 1), s.reg (Reg.slotData 2)]
    (s.holds0 a = false → bit v 30 = true ∨ bit v 31 ≠ s.regB Reg.slotCtrl 31 →
      exec (.slotWrite a v) s = .next (s.protoEventA a Reg.slotCtrl) ∧ exec (.swap a v) s = .next (s.protoEventA a Reg.slotCtrl)) ∧
    (s.holds0 a = true → bit v 30 = true → bit v 31 = false →
      (∀ r, s.slotReason bank n w = some r → ∃ t, exec (.slotWrite a v) s = .next t ∧ t.regB Reg.slotCtrl 28 = true ∧
        t.regF Reg.slotCtrl 0 16 = r % 65536 ∧ t = { s with regs := t.regs, fresh := t.fresh, freshAt := t.freshAt }) ∧
      (s.slotReason bank n w = none → bank = s.activeBank → s.slotWaits n w = true → exec (.slotWrite a v) s =
        .next { s with span := { s.span with deferred := s.span.deferred.put (bank * 64 + n) w } }) ∧
      (s.slotReason bank n w = none → bank ≠ s.activeBank ∨ s.slotWaits n w = false → exec (.slotWrite a v) s =
        .next { s with span := { s.span with
          slots := s.span.slots.put (bank * 64 + n) w, deferred := s.span.deferred.del (bank * 64 + n) } })) ∧
    (s.holds0 a = true → bit v 30 = false → bit v 31 = true → ∃ t, exec (.swap a v) s = .next t ∧
      t.regB Reg.slotCtrl 31 = true ∧ t = { s with regs := t.regs, span := { s.span with swapAt := some s.now } })) ∧
  (∀ (slot : Fin 64) (s : State),
    let w := s.slot s.activeBank slot.val
    let stop := s.slotStart w + slotLen w
    let quiet := s.inGf = true ∨ s.slotOpen w = false ∨ s.slotClaim w = none ∨
      ∃ c ∈ s.span.claims, c.slot = slot.val ∧ c.words = w ∧ c.stop = stop
    (quiet → exec (.slotWindowOpen slot) s = .next s) ∧
    (¬ quiet → ∀ f, s.slotClaim w = some f → exec (.slotWindowOpen slot) s =
      .next { s with span := { s.span with claims := s.span.claims ++
        [{ slot := slot.val, frame := f.id, words := w, stop }] } }) ∧
    (s.slotHome w = false ∨ (slotSess w, stop) ∈ s.span.served → s.slotClaim w = none)) ∧
  (∀ s : State,
    let b := s.nextBoundary
    let moved := { s with span := { s.span with slots := s.span.deferred.foldl (fun (t : Tbl (List Word)) (e : Nat × List Word) => t.put e.1 e.2) s.span.slots, deferred := [], lastBoundary := b, served := s.span.served.filter fun e => decide (b < e.2) } }
    let turned := match s.span.next with
      | some (base, ticks, turn) => if turn = b then { moved with span := { moved.span with base, ticks, next := none } } else moved
      | none => moved
    let other := 1 - s.activeBank
    (s.now < b → exec .roundBoundary s = .next s) ∧
    (b ≤ s.now → ∃ t, exec .roundBoundary s = .next t ∧ t.span.slots = moved.span.slots ∧ t.span.deferred = [] ∧
      t.span.served = moved.span.served ∧ t.span.lastBoundary = b ∧ t.reg Reg.roundCount = s.reg Reg.roundCount + 1 ∧
      (∀ base ticks turn, s.span.next = some (base, ticks, turn) →
        (turn = b → t.span.base = base ∧ t.span.ticks = ticks ∧ t.span.next = none) ∧
        (turn ≠ b → t.span.base = s.span.base ∧ t.span.ticks = s.span.ticks ∧ t.span.next = s.span.next)) ∧
      (s.span.next = none → t.span.base = s.span.base ∧ t.span.ticks = s.span.ticks) ∧
      (s.span.swapAt = none → t.activeBank = s.activeBank) ∧
      (∀ at_, s.span.swapAt = some at_ → b ≤ at_ → t.span.swapAt = some at_ ∧ t.activeBank = s.activeBank) ∧
      (∀ at_, s.span.swapAt = some at_ → at_ < b → t.span.swapAt = none ∧ t.regB Reg.slotCtrl 31 = false ∧
        (((List.range 64).all fun n => (turned.slotReason other n (turned.slot other n)).isNone) = true → t.activeBank = other) ∧
        (((List.range 64).all fun n => (turned.slotReason other n (turned.slot other n)).isNone) = false →
          t.activeBank = s.activeBank ∧ t.regB Reg.slotCtrl 28 = true)) ∧
      t = { s with regs := t.regs, fresh := t.fresh, freshAt := t.freshAt, span := t.span })) ∧
  (∀ (k : SpanKind) (sizeLog : Fin 3) (group : Fin 16) (s : State),
    let es := (s.waitingOn k sizeLog.val group.val).filter fun f => s.eligible f
    (s.canDecide k sizeLog.val group.val = false → exec (.schedulerDecision k sizeLog group) s = .next s) ∧
    (s.canDecide k sizeLog.val group.val = true → (∀ f ∈ s.waitingOn k sizeLog.val group.val, s.mustDrop f = false) →
      (∀ f ∈ s.span.frames, f.burst.isSome = true → f.peer = some group.val → s.mustDrop f = false) →
      (s.span.frames.map (·.id)).Nodup →
      (∀ f stop, s.claimOn k sizeLog.val group.val = some (f, stop) →
        ∃ t, exec (.schedulerDecision k sizeLog group) s = .next t ∧ Obligations.granted s t es f (some stop)) ∧
      (s.claimOn k sizeLog.val group.val = none → es ≠ [] →
        ∃ t f, exec (.schedulerDecision k sizeLog group) s = .next t ∧ Obligations.chosen s es f ∧
          Obligations.granted s t es f none) ∧
      (s.claimOn k sizeLog.val group.val = none → es = [] →
        (k = .enc ∨ sizeLog ≠ 0 ∨ s.burstNext group.val = none → exec (.schedulerDecision k sizeLog group) s = .next s) ∧
        (∀ f, k = .dec → sizeLog = 0 → s.burstNext group.val = some f → f.stage = .granted →
          ∃ t, exec (.schedulerDecision k sizeLog group) s = .next t ∧ t.reg Reg.burstRows = s.reg Reg.burstRows + 1 ∧
            (∀ o, o ≠ Reg.burstRows → t.reg o = s.reg o) ∧
            t.group (groupKey .dec 0 group.val) = { s.group (groupKey .dec 0 group.val) with holder := some f.id } ∧
            t = { s with regs := t.regs, span := { s.span with groups := t.span.groups } }))) ∧
    (s.canDecide k sizeLog.val group.val = true → ∃ t, exec (.schedulerDecision k sizeLog group) s = .next t ∧
      ∀ f ∈ s.waitingOn k sizeLog.val group.val, s.mustDrop f = true → t.frame? f.id = none)) ∧
  (∀ (id : Nat) (f : Frame) (p : Packet) (s : State), s.frame? id = some f → s.packet? f.packet = some p → p.state = .frame →
    (∀ g ∈ s.framesOf f.sess, g.decode = f.decode) →
    let due := s.inGf = false ∧ f.holdsPicture = true ∧ (s.session f.sess).drop = true ∧ f.deadline ≠ 0 ∧ f.deadline < s.now
    (¬ due → exec (.deadlineDrop id) s = .next s) ∧
    (due → ∃ t, exec (.deadlineDrop id) s = .next t ∧ t.frame? id = none ∧ t.packet? p.id = none ∧
      (∀ d ∈ Obligations.crossed s p 0x22 0 [0, 0, 0, 0], d ∈ t.qs.held) ∧ (f.decode = false → p.opc = 0x20 → t.mem = s.mem) ∧
      (t.session f.sess).crossings = (s.session f.sess).crossings + 1))

/-- No packet of session `i` waits for its frames. -/
def Obligations.nothingWaits (s : State) (i : Nat) : Prop := ∀ q ∈ s.qs.packets, q.sessField = i → q.state ≠ .draining

/-- `p` is the packet of encode frame `f`, and the session holds encode frames only. -/
def Obligations.encodes (s : State) (f : Frame) (p : Packet) : Prop :=
  s.packet? f.packet = some p ∧ p.state = .frame ∧ p.opc = 0x20 ∧ ∀ g ∈ s.framesOf f.sess, g.decode = false

/-- The frame is gone and its packet `p` has completed with status and values, at a crossing; memory is `mem` then. -/
def Obligations.leaves (s t : State) (f : Frame) (p : Packet) (status : Nat) (vals : List Word) (mem : Mem) : Prop :=
  t.frame? f.id = none ∧ t.packet? p.id = none ∧ (∀ d ∈ Obligations.crossed s p status 0 vals, d ∈ t.qs.held) ∧
  t.sem = s.sem ∧ t.mbx = s.mbx ∧ t.mem = mem

/-- R121, R172, R173, R179, R185, R192, R23–R27, R187, R248 and R249. -/
def Obligations.EncodePipeline : Prop :=
  (∀ (vb : Fin 4) (s : State),
    let n := vb.val
    (s.inGf = true ∨ n ∈ s.span.gatedVb → exec (.conditioningRow vb) s = .next s) ∧
    (s.inGf = false → n ∉ s.span.gatedVb →
      (s.vbFrames n = [] → exec (.conditioningRow vb) s =
        .next { s with span := { s.span with vbTurn := s.span.vbTurn.put n 0 } }) ∧
      (∀ f, s.vbCurrent n = some f → (s.span.frames.map (·.id)).Nodup →
        let x := s.session f.sess
        let rows := (x.steps.map StepDesc.rows).headD 0
        let done := s.condition x f (f.condRows + 1)
        let s1 := s.rowConditioned f
        ∃ t, exec (.conditioningRow vb) s = .next t ∧
          t.frame? f.id = some { done with condRows := f.condRows + 1, conditioned := decide (rows ≤ f.condRows + 1), vbCtx := decide (f.condRows + 1 < rows), firstTick := if f.condRows = 0 ∧ f.stage ≠ .waiting then s.now else f.firstTick } ∧
          (∀ h, (s1.vbFrames n).find? (fun h => h.vbCtx && s1.gangWaits h) = some h → t.span.vbTurn.get n 0 = h.id + 1) ∧
          (∀ m, m ≠ n → t.span.vbTurn.get m 0 = s.span.vbTurn.get m 0) ∧
          (∀ h : Frame, h.id ≠ f.id → h.decode = true ∨ (s.session h.sess).vb ≠ some n → (h ∈ t.span.frames ↔ h ∈ s.span.frames)) ∧
          (∀ i, i ≠ f.sess → t.session i = s.session i) ∧
          t.session f.sess = (if rows ≤ f.condRows + 1
            then { x with analyses := (x.analyses.put f.encSeq done.analysis).filter fun e => decide (f.encSeq < e.1 + 64) } else x) ∧
          t.qs = s.qs ∧ t.flows = s.flows ∧ t.mem = s.mem ∧ t.sem = s.sem ∧ t.mbx = s.mbx))) ∧
  (∀ (frame : Nat) (intra inter : List Nat) (s : State) (f : Frame), s.frame? frame = some f →
    let x := s.session f.sess
    let rowCosts := x.rowCostsOf (intra.zip inter)
    let ic := sumL intra
    let quiet := s.inGf = true ∨ f.decode = true ∨ f.conditioned = false ∨ f.noAnalysis = true ∨ f.cost ≠ none ∨ x.vb = none ∨
      (∃ n, x.vb = some n ∧ (n ∈ s.span.mzOut ∨ n ∈ s.span.gatedMz)) ∨ intra ≠ x.intraCosts f ∨ inter ≠ s.interCosts f
    let new := (f.encSeq, sumL rowCosts, ic)
    (quiet → exec (.mezzanineAnalysis frame intra inter) s = .next s) ∧
    (¬ quiet → ∃ t, exec (.mezzanineAnalysis frame intra inter) s = .next t ∧
      t.frame? frame = some { f with rowCosts, cost := some (sumL rowCosts, ic) } ∧
      t.session f.sess = { x with costs := (t.session f.sess).costs } ∧
      (t.session f.sess).costs.length ≤ 64 ∧ (∀ c ∈ (t.session f.sess).costs, c = new ∨ c ∈ x.costs) ∧
      (x.costs.length < 64 → new ∈ (t.session f.sess).costs) ∧ (∀ j, j ≠ f.sess → t.session j = s.session j) ∧
      (∀ id, id ≠ frame → t.frame? id = s.frame? id) ∧
      t = { s with sess := t.sess, span := { s.span with frames := t.span.frames } })) ∧
  (∀ (frame : Nat) (member : Fin 4) (bA : Lane) (bB : Option Lane) (s : State) (f : Frame), s.frame? frame = some f →
    let x := s.session f.sess
    let first (g : Frame) := (List.range g.run.length).findSome? fun k => x.decideStep g k
    (s.inGf = true ∨ f.stage ≠ .granted ∨ f.decode = true → exec (.pierReached frame member bA bB false) s = .next s) ∧
    (s.inGf = true ∨ f.decode = true ∨ f.stage ≠ .granted ∧ f.stage ≠ .tail → exec (.pierReached frame member bA bB true) s = .next s) ∧
    (∀ m0, s.inGf = false → f.stage = .granted → f.decode = false → f.members[member.val]? = some m0 → s.replays f false = false →
      (∀ r : Report, r.code = 0x0702 → s.escalates r = false ∧ s.twin r = none) →
      ∃ t, exec (.pierReached frame member bA bB true) s = .next t ∧ t.frame? frame = some { f with abortAt := some 0x20 } ∧
        (∀ id, id ≠ frame → t.frame? id = s.frame? id) ∧
        t.regF Reg.parityErrors 0 32 = satAdd 32 (s.regF Reg.parityErrors 0 32) 1 ∧ t.mem = s.mem ∧ t.sess = s.sess ∧ t.qs = s.qs) ∧
    (∀ m0 r sh, f.members[member.val]? = some m0 →
      let m := advanceMember x f member.val 7 m0
      f.run[m.step]? = some r → (x.shareOf m.step member.val)[m.row]? = some sh →
      (3 ≤ f.awaiting member.val ∧ r.closedAt m.row = false) ∨ x.rowReady f m.step sh.row = false →
      exec (.pierReached frame member bA bB false) s = .next s) ∧
    (∀ g, s.inGf = false → f.stage = .granted → f.decode = false → s.pierAt f member.val bA bB = some (false, g) →
      exec (.pierReached frame member bA bB false) s = .next (s.setFrame g) ∧
      ∃ k ps, g = { f with stalled := f.stalled.put k ps }) ∧
    (∀ g, s.inGf = false → f.stage = .granted → f.decode = false → s.pierAt f member.val bA bB = some (true, g) →
      (first g = none → exec (.pierReached frame member bA bB false) s = .next (s.setFrame g)) ∧
      (∀ h0 k, first g = some (h0, k) →
        let h := s.chainedTo h0 k (x.positions h0 k)
        (∀ st p, h.abortAt = some st → Obligations.encodes s f p →
          ∃ t, exec (.pierReached frame member bA bB false) s = .next t ∧ Obligations.leaves s t f p st [0, 0, 0, 0] s.mem) ∧
        (h.abortAt = none → h.run.all StepRun.finished = true →
          let key := groupKey f.kind f.group.1 f.group.2
          ∃ t, exec (.pierReached frame member bA bB false) s = .next t ∧
            t.frame? frame = some (s.flushFrame { h with stage := .tail, lastPier := s.now }) ∧
            ((s.group key).holder = some frame → (t.group key).holder = none) ∧ (∀ j, j ≠ key → t.group j = s.group j) ∧
            t = { s with regs := t.regs, span := { s.span with frames := t.span.frames, groups := t.span.groups } })))) ∧
  (∀ (r : StepRun) (mode u bA bB : Nat), mode ≠ 2 →
    let k := (r.decideRow mode u bA bB).1
    (k.row = r.row ∧ k.s = r.s ∧ k.closed = some r.row) ∨
    (k.row = r.row + 1 ∧ (k.s = r.s + bA ∨ (k.s = r.s + bB ∧ r.qb u ≠ r.q)) ∧ (mode ≠ 3 → (k.s : Int) ≤ r.bf) ∧
      (mode = 3 → (k.s : Int) ≤ (r.rcNp : Int) - (48 * r.urem r.row : Nat)))) ∧
  (∀ (frame : Nat) (cs : List StepContent) (s : State) (f : Frame), s.frame? frame = some f → f.decode = false →
    let x := s.session f.sess
    let late := f.deadline ≠ 0 ∧ f.deadline < s.now
    let past := x.drop = true ∧ late
    let early := s.inGf = true ∨ s.crossesNext f = false
    let g := s.flushFrame f
    let quiet := early ∨ f.stage ≠ .tail ∨ s.crossReady g cs = false
    (early ∨ (¬ past ∧ quiet) → exec (.crossing frame cs none) s = .next s) ∧
    (∀ pic, early ∨ ¬ past → exec (.crossing frame cs (some pic)) s = .next s) ∧
    (∀ pic p, ¬ early → past → Obligations.encodes s f p →
      ∃ t, exec (.crossing frame cs pic) s = .next t ∧ Obligations.leaves s t f p 0x22 [0, 0, 0, 0] s.mem) ∧
    (∀ p status, ¬ quiet → ¬ past → Obligations.encodes s f p → Obligations.nothingWaits s f.sess →
      (late → status = 2) → (¬ late → (∃ r ∈ f.run, r.closed ≠ none) → status = 3) →
      (¬ late → (∀ r ∈ f.run, r.closed = none) → status = 0) →
      let qp := (f.run.map StepRun.meanQp).headD 0
      ∃ t, exec (.crossing frame cs none) s = .next t ∧
        Obligations.leaves s t f p status
          [loW (sumL (f.run.map (·.s))), closedWord f.run, at_ 8 (f.num % 2 ^ 24) ||| at_ 0 qp, loW (f.lastPier - f.firstTick)] s.mem ∧
        (∀ (k : Nat) (d : StepDesc) (r : StepRun) (c : StepContent), x.steps[k]? = some d → f.run[k]? = some r → cs[k]? = some c →
          let y := s.flow (8 * f.sess + k)
          let o := s.outFrame g k d c
          let new := Slot.ofPicture (f.shadow.getD k 0) f.num 0 0 f.encSeq x.bitDepth x.chroma d.codedW d.codedH (k == 0) c.recon
          let m := (x.mem k).afterFull r x.rcMode x.qpUnit f.intra f.layer
          let z := t.session f.sess
          (t.flow (8 * f.sess + k)).frames = y.frames ++ [o] ∧ (t.flow (8 * f.sess + k)).nextEntry = (g.entries.get k 0 + 1) % 64 ∧ z.mem k = m ∧
          z.snapRec k = recordFull (recordAll (x.snapRec k) true m s.now status p.tag) (!x.nonReference f) r.meanQp r.s o.total (decide late) false r.closed.isSome ∧
          z.stat.get k [] = x.statRecord g k (wd (z.snapRec k) 0).toNat r.s d r c.recon ∧
          z.vis.get k [] = if x.nonReference f then x.vis.get k [] else visibleAfter x.refs f.intra x.stillNamed new (x.vis.get k [])) ∧
        (t.session f.sess).before = (x.keepBank s.cyc).before ∧
        (t.session f.sess).crossings = x.crossings + 1 ∧ (t.session f.sess).crossedFull = true ∧
        (t.session f.sess).nextNum = f.num + 1 ∧ (t.session f.sess).sinceIntra = (if f.intra then 0 else x.sinceIntra + 1) ∧
        (∀ j, j ≠ f.sess → t.session j = s.session j) ∧ (∀ j, j / 8 ≠ f.sess → (t.flow j).frames = (s.flow j).frames))) ∧
  (∀ (flow : Fin 4096) (s : State),
    (s.waitingWriter (flow.val / 8) (flow.val % 8) = none → exec (.writerWait flow) s = .next s) ∧
    (∀ f, s.waitingWriter (flow.val / 8) (flow.val % 8) = some f →
      let x := s.flow flow.val
      let quiet := s.inGf = true
      let stuck := x.unsent = 0 ∧ ∀ g ∈ s.framesOf f.sess, g.stage = .tail → g.id = f.id
      (quiet → exec (.writerWait flow) s = .next s) ∧
      (¬ quiet → ¬ stuck → exec (.writerWait flow) s = .next (s.setFlow flow.val { x with waits := satInc 16 x.waits })) ∧
      (∀ p, ¬ quiet → stuck → Obligations.encodes s f p →
        ∃ t, exec (.writerWait flow) s = .next t ∧ Obligations.leaves s t f p 0x20 [0, 0, 0, 0] s.mem ∧
          (t.flow flow.val).waits = satInc 16 x.waits ∧ (t.flow flow.val).overflows = satInc 16 x.overflows)))

/-- Memory after frame `f` has ended without a picture, and its packet `p` with it if `last`. -/
def Obligations.endedMem (s : State) (f : Frame) (p : Packet) (last : Bool) : Mem :=
  if last then Obligations.dismissed { s with mem := s.mem.ended f.id } p else s.mem.ended f.id

/-- `p` is the packet of decode picture `f`; every frame of the session is a picture, and no packet waits for it. -/
def Obligations.decodes (s : State) (f : Frame) (p : Packet) : Prop :=
  s.packet? f.packet = some p ∧ f.decode = true ∧ (∀ g ∈ s.framesOf f.sess, g.holdsPicture = true) ∧
  Obligations.nothingWaits s f.sess ∧ (s.qs.packets.map (·.id)).Nodup

/-- A burst's packet `p` with `left` pictures to come has one less, and ends with the last. -/
def Obligations.burstLess (t : State) (p : Packet) (left : Nat) : Prop :=
  (left ≤ 1 → t.packet? p.id = none) ∧ (1 < left → t.packet? p.id = some { p with state := .burst (left - 1) })

/-- R23, R206, R214, R217, R223, R229, R230, R233, R234, R236 and R237. -/
def Obligations.DecodePictures : Prop :=
  (∀ (frame : Nat) (row : RowEnd) (s : State) (f : Frame), s.frame? frame = some f →
    let x := s.session f.sess
    let key := groupKey .dec f.group.1 f.group.2
    let quiet := s.inGf = true ∨ f.decode = false ∨ f.stage ≠ .granted ∨ (s.group key).holder ≠ some frame ∨ s.rowEndOk x f row = false
    let h := { row.damage.foldl Frame.damaged f with
      rowsDone := f.rowsDone + 1, bottom := row.bottom,
      staged := if f.pitch = 0 then f.staged else (f.staged ++ row.input).take f.length }
    let g := { h with parser := Config.parserState x.codec (s.clearBytes h) (f.rowsDone + 1) }
    let moved (t : State) := t = { s with regs := t.regs, span := { s.span with frames := t.span.frames, groups := t.span.groups } }
    (quiet → exec (.decodeRowEnd frame row) s = .next s) ∧
    (∀ e h, e ∈ row.reads → s.frame? e.1 = some h → h.filtered ≤ min (e.2 + 8) (x.height - 1) / 64 →
      exec (.decodeRowEnd frame row) s = .next s) ∧
    (∀ st p, ¬ quiet → f.abortAt = some st → p.state = .frame → Obligations.decodes s f p →
      ∃ t, exec (.decodeRowEnd frame row) s = .next t ∧
        Obligations.leaves s t f p st [0, 0, 0, 0] (Obligations.endedMem s f p true)) ∧
    (¬ quiet → f.abortAt = none → row.rows ≤ f.rowsDone + 1 → ∃ t, exec (.decodeRowEnd frame row) s = .next t ∧
      t.frame? frame = some { g with stage := .tail, lastPier := s.now } ∧ (t.group key).holder = none ∧
      (∀ j, j ≠ key → t.group j = s.group j) ∧ moved t) ∧
    (¬ quiet → f.abortAt = none → f.rowsDone + 1 < row.rows → f.burst ≠ none →
      ∃ t, exec (.decodeRowEnd frame row) s = .next t ∧ t.frame? frame = some g ∧ (t.group key).holder = none ∧
        (∀ j, j ≠ key → t.group j = s.group j) ∧ moved t) ∧
    (¬ quiet → f.abortAt = none → f.rowsDone + 1 < row.rows → f.burst = none →
      exec (.decodeRowEnd frame row) s = .next (s.setFrame g))) ∧
  (∀ (f : Frame) (d : Damage),
    let g := f.damaged d
    g = { f with flags := g.flags, concealed := g.concealed } ∧
    (d.run = .nothing → g.flags = f.flags ||| errorFlag d.error ∧ g.concealed = f.concealed) ∧
    (d.run = .picture → g.flags = f.flags ||| errorFlag d.error ||| 0x10000000 ∧ g.concealed = f.concealed) ∧
    (∀ cols rows cs rs detected first resume, d.run = .units cols rows cs rs detected first resume →
      let run := discarded cols rows cs rs detected first resume
      g.flags = f.flags ||| errorFlag d.error ||| 0x80000000 ||| (if resume = none ∧ d.error ≠ .neverCame then 0x20000 else 0) ∧
      g.concealed = f.concealed ++ run.filter fun u => !f.concealed.contains u)) ∧
  (∀ (frame : Nat) (cs : List StepContent) (pic : PictureInfo) (s : State) (f : Frame), s.frame? frame = some f →
    f.decode = true →
    let x := s.session f.sess
    let late := f.deadline ≠ 0 ∧ f.deadline < s.now
    let past := x.drop = true ∧ late
    let early := s.inGf = true ∨ f.length = 0 ∨ s.crossesNext f = false
    let toPeer := f.stage = .tail ∧ f.burst ≠ none ∧ f.outDesc = []
    let order := at_ 16 (x.orderOf pic).1 ||| at_ 0 (x.orderOf pic).2
    let u := pic.hidden.foldl (fun st h => st.enterHidden f order h) (s.setSession f.sess ((x.keepBank s.cyc).takeSets f))
    let y := u.session f.sess
    let flags := u.pictureFlags f pic
    let kept := u.galleryPicture f pic
    let new := Slot.ofPicture (f.shadow.getD 0 0) (y.decoded + 1) order (flags / 0x10000000 % 16) 0 y.bitDepth y.chroma
      (kept.y.headD []).length kept.y.length false kept
    let mem := ((u.writePicture f pic (y.outWords pic order (loW flags))).mem.settled f.id).ended f.id
    (early ∨ (¬ past ∧ ¬ toPeer) → exec (.crossing frame cs none) s = .next s) ∧
    (early ∨ (¬ past ∧ s.pictureReady f pic = false) → exec (.crossing frame cs (some pic)) s = .next s) ∧
    (∀ any p, ¬ early → past → p.state = .frame → Obligations.decodes s f p →
      ∃ t, exec (.crossing frame cs any) s = .next t ∧
        Obligations.leaves s t f p 0x22 [0, 0, 0, 0] (Obligations.endedMem s f p true)) ∧
    (∀ p left, ¬ early → ¬ past → toPeer → p.state = .burst left → Obligations.decodes s f p →
      ∃ t, exec (.crossing frame cs none) s = .next t ∧ t.frame? f.id = none ∧
        (∀ d ∈ Obligations.crossed s p 0x20 0 [0, 0, 0, 0], d ∈ t.qs.held) ∧ Obligations.burstLess t p left ∧
        (t.session f.sess).crossings = x.crossings + 1 ∧ (t.session f.sess).decoded = x.decoded ∧
        (t.session f.sess).vis = x.vis ∧ t.mem = Obligations.endedMem s f p (decide (left ≤ 1))) ∧
    (∀ p status, ¬ early → ¬ past → s.pictureReady f pic = true → Obligations.decodes s f p →
      (late → status = 2) → (¬ late → 0x10000000 ≤ flags % 0x100000000 → status = 1) →
      (¬ late → flags % 0x100000000 < 0x10000000 → status = 0) →
      ∃ t, exec (.crossing frame cs (some pic)) s = .next t ∧
        (p.state = .frame → f.burst = none → Obligations.leaves s t f p status [order, loW flags, loW f.consumed, 0]
          (Obligations.dismissed { s with mem } p)) ∧
        (∀ left k last, p.state = .burst left → f.burst = some (k, last) → t.frame? f.id = none ∧
          (∀ d ∈ Obligations.crossed s p status 0 [order, loW flags, at_ 31 (b2n last) ||| at_ 0 k, 0], d ∈ t.qs.held) ∧
          Obligations.burstLess t p left ∧ t.mem = if left ≤ 1 then Obligations.dismissed { s with mem } p else mem) ∧
        (f.outDesc ≠ [] → t.out = s.out) ∧
        (t.session f.sess).before = (x.keepBank s.cyc).before ∧
        (t.session f.sess).crossings = x.crossings + 1 ∧ (t.session f.sess).drains = x.drains + 1 ∧
        (t.session f.sess).decoded = y.decoded + 1 ∧ (t.session f.sess).sets = y.sets ∧
        (t.session f.sess).vis.get 0 [] = decodeVisible y.refs pic.keep pic.isRef new (y.vis.get 0 []) ∧
        (t.session f.sess).snapRec 0 =
          recordFull (recordAll (y.snapRec 0) false (y.mem 0) s.now status p.tag) pic.isRef 0 0 0 (decide late) (status == 1) false ∧
        (∀ j, j ≠ f.sess → t.session j = s.session j) ∧ t.sem = s.sem ∧ t.mbx = s.mbx)) ∧
  (∀ (s : State) (f : Frame) (pic : PictureInfo),
    let x := s.session f.sess
    let outside := x.width < pic.sizeW ∨ x.height < pic.sizeH ∨ pic.depth ≠ x.bitDepth ∨ pic.chroma ≠ x.chroma ∨ pic.outside = true
    (outside → (s.pictureFlags f pic).testBit 28 = true ∧ (s.pictureFlags f pic).testBit 20 = true) ∧
    (¬ outside → s.sourceLost f = false → pic.reads = [] → pic.shown = none → f.concealed = [] → f.flags = 0 →
      (∀ n ∈ pic.needs, x.sets.get (n.1 * 65536 + n.2) false = true) →
      s.pictureFlags f pic = if pic.notForOutput then 0x8000000 else 0) ∧
    (∀ g, pic.grained = some g → isLost (s.ownFlags f pic.toDecoded) = false → pic.shown = none → f.concealed = [] →
      s.outPicture f pic = g ∧ s.galleryPicture f pic = pic.pic)) ∧
  (∀ (o : Holes) (own ref : List (List Nat)) (sx sy x y : Nat), sx ≠ 0 → sy ≠ 0 → o.vector (sx * x / 64) (sy * y / 64) = none →
    o.sample own (some ref) sx sy x y = pix ref x y)

/-- The bytes a packet of `n` payload bytes is charged for (R251, R258). -/
def Obligations.charge (x : Flow) (n : Nat) : Nat :=
  32 + n + (if imgKey x.image = 0xFF then 0 else 16) + imgOverhead x.image

/-- The flow is HALTED with a cause, and HALT_EVENTS has counted it. -/
def Obligations.halted (s t : State) (f cause : Nat) : Prop :=
  t.flow f = { s.flow f with state := 2, haltCause := cause, ringPin := none, lastRead := (t.flow f).lastRead, retried := (t.flow f).retried } ∧
  t.regF Reg.haltEvents 0 32 = satAdd 32 (s.regF Reg.haltEvents 0 32) 1 ∧ (∀ g, g ≠ f → t.flow g = s.flow g) ∧
  t.mem = s.mem ∧ t.sess = s.sess ∧ t.span = s.span ∧ t.qs = s.qs ∧ t.sem = s.sem ∧ t.mbx = s.mbx

/-- What is written at a bus address for a function: nothing where an Insecure IDE stream covers the device's accesses (R369). -/
def Obligations.sentTo (s : State) (fid addr : Nat) (bs : List Byte) : List Emit :=
  if s.ideDrops (portOf fid) .device then [] else Obligations.busWrites fid addr bs

/-- R247, R249, R257–R260. -/
def Obligations.EgressFlows : Prop :=
  (∀ (flow : Fin 4096) (s : State),
    let f := flow.val
    let x := s.flow f
    (s.inGf = true ∨ s.clk.inDeep = true ∨ x.head ≠ none ∨ x.frames = [] ∨ (x.landingRead s.cyc).tag = .idle ∨
        (∃ o rest, x.frames = o :: rest ∧ (o.packets[o.next]? = none ∨ s.cyc ≤ o.since)) →
      exec (.headLandingFill flow none) s = .next s) ∧
    (∀ o rest frag payload, s.inGf = false → s.clk.inDeep = false → x.head = none → x.frames = o :: rest → (x.landingRead s.cyc).tag ≠ .idle →
      o.packets[o.next]? = some (frag, payload) →
      (o.poisonedIn o.taken payload.length = false →
        let fin := max (s.tgTime.get (s.flowSched f) 0) x.lastFinish + ceilDiv (Obligations.charge x payload.length * 256) (imgWeight x.image)
        exec (.headLandingFill flow none) s = .next (s.setFlow f
          { x with head := some { frag, payload, index := o.next, count := o.total, first := o.next == 0, last := o.next + 1 == o.total, frameNum := o.num, pts := o.pts, finish := fin },
                   lastFinish := fin, frames := { o with next := o.next + 1 } :: rest })) ∧
      (o.poisonedIn o.taken payload.length = true → s.twin (s.flowReport f 0x0701 3) = none → ∃ t, exec (.headLandingFill flow none) s = .next t ∧
        (t.flow f).frames = rest ∧ (t.flow f).head = none ∧ (t.flow f).lost = satAdd 32 x.lost (o.total - o.next) ∧
        t.session (f / 8) = { s.session (f / 8) with nextIntra := true } ∧
        t.regF Reg.poisonCount 0 32 = satAdd 32 (s.regF Reg.poisonCount 0 32) (o.total - o.next) ∧
        (∀ g, g ≠ f → t.flow g = s.flow g) ∧ (∀ j, j ≠ f / 8 → t.session j = s.session j) ∧ t.mem = s.mem ∧ t.span = s.span ∧ t.qs = s.qs))) ∧
  (∀ (flow : Fin 4096) (num b : Nat) (s : State),
    let holds (h : HeadPacket) := ∃ o rest, (s.flow flow.val).frames = o :: rest ∧ o.num = num ∧
      { o with poison := b :: o.poison }.poisonedIn (o.taken - h.payload.length) h.payload.length = true
    (s.inGf = true ∨ s.clk.inDeep = true → exec (.headLandingFill flow (some (num, b))) s = .next s) ∧
    (∀ h, s.inGf = false → s.clk.inDeep = false → (s.flow flow.val).head = some h → holds h →
      s.twin (s.flowReport flow.val 0x0701 3) = none →
      ∃ t u, exec (.headLandingFill flow (some (num, b))) s = .next u ∧ exec (.headLandingFill flow none) t = .next u ∧
        (t.flow flow.val).head = none ∧ (t.flow flow.val).lost = satAdd 32 (s.flow flow.val).lost
          (((s.flow flow.val).frames.head?.map fun o => o.total - o.next).getD 0 + 1) ∧
        t.session (flow.val / 8) = { s.session (flow.val / 8) with nextIntra := true } ∧
        (∀ g, g ≠ flow.val → t.flow g = s.flow g) ∧ t.mem = s.mem ∧ t.qs = s.qs) ∧
    (s.inGf = false → s.clk.inDeep = false → (∀ h, (s.flow flow.val).head = some h → ¬ holds h) → ∃ u t, exec (.headLandingFill flow (some (num, b))) s = .next t ∧
      exec (.headLandingFill flow none) u = .next t ∧ u = { s with flows := u.flows, regs := u.regs } ∧
      u.regF Reg.parityErrors 0 32 = satAdd 32 (s.regF Reg.parityErrors 0 32) 1 ∧ (∀ g, g ≠ flow.val → u.flow g = s.flow g) ∧
      (∀ o, o ≠ Reg.parityErrors → u.reg o = s.reg o) ∧
      u.flow flow.val = { s.flow flow.val with frames := (s.flow flow.val).frames.map fun o =>
        if o.num = num then { o with poison := b :: o.poison } else o })) ∧
  (∀ s : State, (s.clk.inDeep = true ∨ s.tgRefill = some s.time.raw → exec .tokenRefill s = .next s) ∧
    (s.clk.inDeep = false → s.tgRefill ≠ some s.time.raw → ∃ t, exec .tokenRefill s = .next t ∧
      t = { s with flows := t.flows, tgRefill := some s.time.raw } ∧
      ∀ f,
        let x := s.flow f
        let y := s.session (f / 8)
        let due := x.image ≠ [] ∧ y.claimed = true ∧ f % 8 < y.steps.length ∧ (y.en = true ∨ x.unsent ≠ 0)
        (¬ due → t.flow f = x) ∧
        (due → t.flow f = { x with tokens := min (x.tokens + imgRate x.image) (imgBurst x.image * 800000) }))) ∧
  (∀ (sched : Fin 3) (s : State),
    let may (f : Nat) := s.flowSched f = sched.val ∧ s.wants f (s.flow f) = true ∧ (s.flow f).ringFull = false
    let fin (f : Nat) := ((s.flow f).head.map HeadPacket.finish).getD 0
    (s.inGf = true ∨ s.clk.inDeep = true ∨ s.cyc < s.tgFree.get sched.val 0 ∨ s.tgRefill ≠ some s.time.raw →
      exec (.packetGrant sched) s = .next s) ∧
    ((s.flows.map Prod.fst).Nodup → (∀ f, ¬ may f) → exec (.packetGrant sched) s = .next s) ∧
    (∀ f h, s.inGf = false → s.clk.inDeep = false → s.tgFree.get sched.val 0 ≤ s.cyc → s.tgRefill = some s.time.raw →
      (s.flows.map Prod.fst).Nodup → may f →
      (∀ g, may g → fin f < fin g ∨ (fin f = fin g ∧ f ≤ g)) → (s.flow f).head = some h →
      let x := s.flow f
      let n := h.payload.length
      let key := imgKey x.image
      let bytes := 32 + n + (if key = 0xFF then 0 else 16)
      let seq := if key = 0xFF then 0 else (s.key key).seq
      let slot := s.ringBase x + x.prod * imgSlotBytes x.image
      let body := s.packetBody f x h seq
      let stop := s.cyc + ceilDiv bytes 32
      (∀ cause, s.keyHalt f x = some cause → ∃ t, exec (.packetGrant sched) s = .next t ∧ Obligations.halted s t f cause) ∧
      (s.keyHalt f x = none → ∃ t u, exec (.packetGrant sched) s = .next t ∧
        (h.last = true → t = u) ∧ (h.last = false → ∀ flow : Fin 4096, flow.val = f → exec (.headLandingFill flow none) u = .next t) ∧
        u.flow f = { x with
          tokens := x.tokens - Obligations.charge x n * 800000, head := none, frames := if h.last then x.frames.drop 1 else x.frames,
          sending := some { packet := h, image := x.image, fid := s.flowFid f, slot, phase := x.phase, seq, ends := stop } } ∧
        (∀ g, g ≠ f → u.flow g = s.flow g) ∧ (∀ k, u.key k = if k = key ∧ key ≠ 0xFF then { s.key key with seq := seq + 1 } else s.key k) ∧
        (imgMem x.image = true → u.mem = s.mem.store (slot + 32) body ∧ u.out = s.out) ∧
        (imgMem x.image = false → u.mem = s.mem ∧ u.out = s.out ++ Obligations.sentTo s (s.flowFid f) (slot + 32) body) ∧
        u = { s with flows := u.flows, mem := u.mem, out := u.out, sec := { s.sec with slots := u.sec.slots },
                     tgTime := s.tgTime.put sched.val h.finish, tgFree := s.tgFree.put sched.val stop }) ∧
      body.length = n + (if key = 0xFF then 0 else 16))) ∧
  (∀ (f : Nat) (p : Sending) (s : State), s.pending = [] → s.ic.latches = [] → s.time.cycle ≤ 11 → (s.flow f).sending = some p →
    (s.flows.map Prod.fst).Nodup → (∀ e ∈ s.flows, e.1 ≠ f → e.2.sending = none) → (s.key (imgKey p.image)).state ≠ 2 →
    let x := s.flow f
    let y := { x with image := p.image }
    let n := p.packet.payload.length
    let prod := (x.prod + 1) % 2 ^ imgLogSlots p.image
    let header := headerBytes f y p.packet p.phase p.seq
    let bell := if imgDoorbell p.image = 0 then [] else Obligations.sentTo s p.fid (imgDoorbell p.image) (natBytes 4 prod)
    (s.cyc + 1 < p.ends → ∃ t, step s = .next t ∧ t.flow f = x ∧ t.mem = s.mem ∧ t.out = []) ∧
    (p.ends ≤ s.cyc + 1 → ∃ t, step s = .next t ∧
      (imgMem p.image = true → t.mem = s.mem.store p.slot header ∧ t.out = bell) ∧
      (imgMem p.image = false → t.mem = s.mem ∧ t.out = Obligations.sentTo s p.fid p.slot header ++ bell) ∧
      (t.flow f).sending = none ∧ (t.flow f).prod = prod ∧ (t.flow f).phase = (if prod = 0 then !x.phase else x.phase) ∧
      (t.flow f).sent = (x.sent + 1) % 2 ^ 32 ∧
      (t.flow f).bytesSent = x.bytesSent + 32 + n + (if imgKey p.image = 0xFF then 0 else 16) ∧
      (t.flow f).lastFrame = p.packet.frameNum % 2 ^ 24 ∧ (t.flow f).tokens = x.tokens ∧ (t.flow f).head = x.head ∧
      (∀ g, g ≠ f → t.flow g = s.flow g) ∧ t.sess = s.sess ∧ t.span = s.span ∧ t.sem = s.sem ∧ t.mbx = s.mbx)) ∧
  (∀ (flow : Fin 4096) (index : Option Word) (s : State),
    let f := flow.val
    let x := s.flow f
    let quiet := s.inGf = true ∨ s.clk.inDeep = true ∨ s.wants f x = false ∨ x.ringFull = false ∨ s.cyc < s.tgFree.get (s.flowSched f) 0 ∨
      (x.retried = 0 ∧ ∃ at_, x.lastRead = some at_ ∧ s.now < at_ + 100)
    let read := if imgMem x.image then s.memIndex x else index
    let y := { x with lastRead := some s.now }
    let asked := if imgMem x.image ∨ s.ideDrops (portOf (s.flowFid f)) .device then []
      else [Emit.busRead (s.flowFid f) (pair64 (wd x.image 10) (wd x.image 9)) 4]
    let more := s.regF Reg.chRetry 0 4
    (quiet → exec (.consumerIndexRead flow index) s = .next s) ∧
    (¬ quiet → read = none → x.retried < more → ∃ t, exec (.consumerIndexRead flow index) s = .next t ∧
      t.flow f = { y with retried := x.retried + 1 } ∧ (∀ g, g ≠ f → t.flow g = s.flow g) ∧
      t = { s with flows := t.flows, out := s.out ++ asked }) ∧
    (¬ quiet → read = none → more ≤ x.retried → s.twin (s.flowReport f 0x0703 2) = none →
      ∃ t, exec (.consumerIndexRead flow index) s = .next t ∧ Obligations.halted s t f 1 ∧
        (t.flow f).lastRead = some s.now ∧ (t.flow f).retried = 0 ∧ t.out = s.out ++ asked) ∧
    (∀ v, ¬ quiet → read = some v → 2 ^ imgLogSlots x.image ≤ v.toNat → ∃ t, exec (.consumerIndexRead flow index) s = .next t ∧
      Obligations.halted s t f 5 ∧ (t.flow f).lastRead = some s.now ∧ (t.flow f).retried = 0 ∧ t.out = s.out ++ asked) ∧
    (∀ v, ¬ quiet → read = some v → v.toNat < 2 ^ imgLogSlots x.image → ∃ t, exec (.consumerIndexRead flow index) s = .next t ∧
      t.flow f = { y with retried := 0, cons := v.toNat } ∧ (∀ g, g ≠ f → t.flow g = s.flow g) ∧
      t = { s with flows := t.flows, out := s.out ++ asked }))

/-- The frame `f` that a contained fault struck in `s`: rewound to wait where it is replayed, and otherwise to end ABORTED at
its next pier, or gone where it was in its tail or waited for a replay. -/
def Obligations.struckFrame (s t : State) (f : Frame) (spare : Bool) : Prop :=
  (s.replays f spare = true → t.frame? f.id = some (f.rewind .replayWait) ∧
    (t.group (groupKey f.kind f.group.1 f.group.2)).holder = some f.id) ∧
  (s.replays f spare = false → f.stage = .granted → t.frame? f.id = some { f with abortAt := some 0x20 }) ∧
  (∀ p, s.replays f spare = false → f.stage = .tail ∨ f.awaitsReplay = true →
    (Obligations.encodes s f p → Obligations.leaves s t f p 0x20 [0, 0, 0, 0] s.mem) ∧
    (p.state = .frame → Obligations.decodes s f p → Obligations.leaves s t f p 0x20 [0, 0, 0, 0] (Obligations.endedMem s f p true)))

/-- Sessions change in nothing but where those of the kind that stood on a lost group are homed anew (R104). -/
def Obligations.homedOnly (s t : State) (k : SpanKind) : Prop :=
  (∀ i, t.session i = { s.session i with home := (t.session i).home, overcommitted := (t.session i).overcommitted }) ∧
  ((s.sess.map Prod.fst).Nodup → ∀ i, (∀ g, (s.session i).home = some g → s.groupLost k g.1 g.2 = false) ∨ (s.session i).spanKind ≠ k → t.session i = s.session i)

/-- The physical span `p`, holding index `l` or none, has failed: what R373 and R374 do with it and the frame it serves. -/
def Obligations.spanFails (s t : State) (k : SpanKind) (p : Nat) : Prop :=
  let spare := decide (0 < s.sparesLeft k)
  (∃ seq inPlace unused, t.span.testing = s.span.testing ++ [{ kind := k, phys := p, inPlace, spare := unused, seq }] ∧
    (s.logicalOf k p = none → inPlace = none ∧ unused = true ∧ t.spanMap k = s.spanMap k ∧ t.span.waiting = s.span.waiting ∧ t.span.frames = s.span.frames ∧ t.mem = s.mem) ∧
    (∀ l, s.logicalOf k p = some l → unused = false ∧
      (spare = true → inPlace = none ∧ t.spanMap k = (s.spanMap k).del l ∧ t.span.waiting = s.span.waiting ++ [(k, l)]) ∧
      (spare = false → inPlace = some l ∧ t.spanMap k = s.spanMap k ∧ t.span.waiting = s.span.waiting) ∧
      (s.struck k l = [] → t.span.frames = s.span.frames) ∧
      ((∀ f ∈ s.struck k l, f.stage = .granted) ∨ (∀ f ∈ s.struck k l, s.replays f spare = true) → t.mem = s.mem) ∧
      (∀ f, s.struck k l = [f] → (s.span.frames.map (·.id)).Nodup → Obligations.struckFrame s t f spare))) ∧
  t.span.retired = s.span.retired ∧ t.sem = s.sem ∧ t.mbx = s.mbx

/-- A real fault fell into the cycle of an injected one that took its unit out of service: one of the two entries records MERGED, and
the unit's reaction is not carried out twice (R385). -/
def Obligations.merges (s t : State) : Prop :=
  t.regF Reg.merged 0 32 = satAdd 32 (s.regF Reg.merged 0 32) 1 ∧ t.span.frames = s.span.frames ∧
  t.span.mapEnc = s.span.mapEnc ∧ t.span.mapDec = s.span.mapDec ∧ t.span.retired = s.span.retired ∧
  t.span.testing.map (fun u => (u.kind, u.phys, u.inPlace)) = s.span.testing.map (fun u => (u.kind, u.phys, u.inPlace)) ∧
  t.sess = s.sess ∧ t.qs = s.qs ∧ t.mem = s.mem ∧ t.sem = s.sem ∧ t.mbx = s.mbx

/-- R372–R376, R385, and R381 with R386 for an escalated fault. -/
def Obligations.SpanFaults : Prop :=
  (∀ (k : SpanKind) (i : Fin 18) (s : State),
    let p := i.val
    let check := (Report.of (spanUnit k p) (match k with | .enc => 0x0101 | .dec => 0x0201))
    let hang := (Report.of (spanUnit k p) (match k with | .enc => 0x0102 | .dec => 0x0202))
    let runs := ∃ l, s.logicalOf k p = some l ∧ ∃ f ∈ s.struck k l, f.stage = .granted
    (s.inGf = true ∨ s.isRetired k p = true → exec (.spanCheckFailed k i false) s = .next s) ∧
    (exec (.spanCheckFailed k i true) s = .next (if s.inGf ∨ s.isRetired k p then s
      else s.log (Report.of (spanUnit k p) (match k with | .enc => 0x0103 | .dec => 0x0203)))) ∧
    (s.inTest k p = true → s.twin check = none → exec (.spanCheckFailed k i false) s = .next s) ∧
    (s.inGf = true ∨ (s.inTest k p = true ∧ s.twin hang = none) ∨ (s.inTest k p = false ∧ ¬ runs) →
      exec (.spanHang k i) s = .next s) ∧
    (s.inGf = false → s.isRetired k p = false → s.inTest k p = true →
      ((s.twin check).isSome = true → s.classOf check = 1 → ∃ t, exec (.spanCheckFailed k i false) s = .next t ∧ Obligations.merges s t) ∧
      ((s.twin hang).isSome = true → s.classOf hang = 1 → ∃ t, exec (.spanHang k i) s = .next t ∧ Obligations.merges s t)) ∧
    (s.inGf = false → s.inTest k p = false →
      (s.isRetired k p = false → s.classOf check = 1 → ∃ t, exec (.spanCheckFailed k i false) s = .next t ∧ Obligations.spanFails s t k p) ∧
      (runs → s.classOf hang = 1 → ∃ t, exec (.spanHang k i) s = .next t ∧ Obligations.spanFails s t k p) ∧
      (s.isRetired k p = false → s.classOf check = 2 → ∃ t, exec (.spanCheckFailed k i false) s = .next t ∧ t.inGf = true) ∧
      (runs → s.classOf hang = 2 → ∃ t, exec (.spanHang k i) s = .next t ∧ t.inGf = true))) ∧
  (∀ (k : SpanKind) (logical : Fin 16) (s : State),
    let l := logical.val
    (s.inGf = true ∨ s.spareDue k l = false ∨ s.spares k = [] → exec (.spareTakeover k logical) s = .next s) ∧
    (∀ p rest, s.inGf = false → s.spareDue k l = true → s.spares k = p :: rest → (∀ f ∈ s.span.frames, f.ending = false) →
      ∃ t, exec (.spareTakeover k logical) s = .next t ∧ t.physOf k l = some p ∧ t.spareDue k l = false ∧
        (∀ j, j ≠ l → t.physOf k j = s.physOf k j) ∧
        Obligations.homedOnly s t k ∧
        t = { s with sess := t.sess, span := { s.span with mapEnc := t.span.mapEnc, mapDec := t.span.mapDec, waiting := t.span.waiting } })) ∧
  (∀ (k : SpanKind) (i : Fin 18) (pass : Bool) (s : State),
    let p := i.val
    let kept := s.span.testing.filter fun u => !(u.kind == k && u.phys == p)
    let quiet := ∀ f ∈ s.span.frames, f.ending = false ∧ f.awaitsReplay = false
    (s.inGf = true ∨ s.inTest k p = false → exec (.spanSelfTestEnd k i pass) s = .next s) ∧
    (∀ d, s.inGf = false → (s.span.testing.find? fun u => u.kind == k && u.phys == p) = some d → quiet →
      ∃ t, exec (.spanSelfTestEnd k i pass) s = .next t ∧ t.span.testing = kept ∧ t.span.frames = s.span.frames ∧
        (pass = true → t.span.retired = s.span.retired ∧ t.spanMap k = s.spanMap k) ∧
        (pass = false → t.span.retired = s.span.retired ++ [(k, p)] ∧
          (d.inPlace = none → t.spanMap k = s.spanMap k) ∧ (∀ l, d.inPlace = some l → t.spanMap k = (s.spanMap k).del l)) ∧
        (∀ h, (s.fc.hist.map Prod.fst).Nodup → s.fc.hist.find? (fun e => e.2.seq == d.seq) = some h → pass = true →
          t.fc.hist.find h.1 = some { h.2 with outcome := if d.inPlace.isSome then 2 else 3 }) ∧
        (pass = true ∨ d.inPlace = none → Obligations.homedOnly s t k ∧ (d.inPlace = none → t.sess = s.sess) ∧
          t = { s with sess := t.sess, span := { s.span with testing := kept, retired := t.span.retired }, fc := { s.fc with hist := t.fc.hist } }) ∧
        (∀ l, pass = false → d.inPlace = some l →
          let s1 := { s with span := { s.span with testing := kept, retired := s.span.retired ++ [(k, p)] } }
          (0 < s1.sparesLeft k → t.span.waiting = s.span.waiting ++ [(k, l)]) ∧
          (s1.sparesLeft k = 0 → t.span.waiting = s.span.waiting ∧ t.regB Reg.capStatus 0 = true)))) ∧
  (∀ (frame : Nat) (s : State) (f : Frame), s.frame? frame = some f →
    let quiet := s.inGf = true ∨ f.awaitsReplay = false ∨ s.groupServes f.kind f.group.1 f.group.2 = false ∨ s.gangFree f = false
    let key := groupKey f.kind f.group.1 f.group.2
    (quiet → exec (.detourReplay frame) s = .next s) ∧
    (¬ quiet → ∃ t, exec (.detourReplay frame) s = .next t ∧ 
      t.frame? frame = some { (if f.decode then { f with staged := s.sourceBytes f } else s.readHints (s.session f.sess) f) with stage := .granted } ∧
      (f.decode = false ∨ f.pitch = 0 → t.out = s.out) ∧ t.group key = { s.group key with holder := some frame } ∧ t.regF Reg.detours 0 32 = satAdd 32 (s.regF Reg.detours 0 32) 1 ∧
      (∀ j, j ≠ key → t.group j = s.group j) ∧ (∀ id, id ≠ frame → t.frame? id = s.frame? id) ∧
      t = { s with regs := t.regs, out := t.out, span := { s.span with frames := t.span.frames, groups := t.span.groups } })) ∧
  (∀ (n : Fin 4) (s : State),
    let r := Report.of (0x0300 + n.val) 0x0301
    let fs := (s.vbFrames n.val).filter Frame.vbCtx
    let anew (f : Frame) := s.readHints (s.session f.sess) { f with condRows := 0, copies := [], analysis := [] }
    (s.inGf = true → exec (.vestibuleCheckFailed n) s = .next s) ∧
    (s.inGf = false → s.classOf r = 2 → ∃ t, exec (.vestibuleCheckFailed n) s = .next t ∧ t.inGf = true) ∧
    (s.inGf = false → s.classOf r = 1 → s.twin r = none → (s.span.frames.map (·.id)).Nodup →
      ∃ t, exec (.vestibuleCheckFailed n) s = .next t ∧
      (∀ f, (fs.filter fun g => g.stage == .granted || g.awaitsReplay) = [f] → Obligations.struckFrame s t (anew f) false) ∧
      ((∀ f ∈ fs, f.awaitsReplay = true → s.replays f false = true) →
        (∀ f ∈ fs, f.stage ≠ .granted → f.awaitsReplay = false → t.frame? f.id = some (anew f)) ∧
        (∀ f ∈ s.span.frames, f ∉ fs → f ∈ t.span.frames) ∧ t.sess = s.sess ∧ t.qs = s.qs ∧ t.mem = s.mem))) ∧
  (∀ (n : Fin 4) (frame : Nat) (s : State) (f : Frame), s.frame? frame = some f →
    let x := s.session f.sess
    let r := Report.of (0x0400 + n.val) 0x0401
    let quiet := s.inGf = true ∨ f.decode = true ∨ x.vb ≠ some n.val ∨ n.val ∈ s.span.mzOut ∨ f.stage ≠ .waiting
    (quiet → exec (.mezzanineCheckFailed n frame) s = .next s) ∧
    (¬ quiet → ∃ t, exec (.mezzanineCheckFailed n frame) s = .next t ∧
      t.frame? frame = some { f with noAnalysis := true, cost := none, rowCosts := [] } ∧
      t.session f.sess = { x with costs := x.costs.filter fun c => c.1 != f.encSeq } ∧
      (s.classOf r = 0 → t.span.mzOut = s.span.mzOut) ∧ (s.classOf r = 1 → t.span.mzOut = s.span.mzOut ++ [n.val]) ∧
      (∀ j, j ≠ f.sess → t.session j = s.session j) ∧ (∀ id, id ≠ frame → t.frame? id = s.frame? id) ∧
      t.qs = s.qs ∧ t.mem = s.mem))

/-- A fault is recorded and nothing more happens: its class is counted, the history and its registers and source move. -/
def Obligations.onlyRecorded (s t : State) (cls : Nat) : Prop :=
  t.regF (Reg.classCount cls) 0 32 = satAdd 32 (s.regF (Reg.classCount cls) 0 32) 1 ∧ t.reg Reg.gfCause = s.reg Reg.gfCause ∧
  t = { s with regs := t.regs, fresh := t.fresh, freshAt := t.freshAt, ic := t.ic, fc := { s.fc with hist := t.fc.hist } }

/-- The device enters Ground Floor mode for the fault it has just recorded (Table 17-8). -/
def Obligations.entersGf (s t : State) : Prop :=
  t.inGf = true ∧ t.fc.gfService = false ∧ t.reg Reg.gfCause = t.reg Reg.headSeq ∧ t.regB Reg.fcStatus 31 = true ∧
  t.regF (Reg.classCount 2) 0 32 = satAdd 32 (s.regF (Reg.classCount 2) 0 32) 1 ∧
  (∀ f, (t.flow f).frames = [] ∧ (t.flow f).head = none) ∧ (∀ k, (t.key k).state = 0) ∧
  t.span = s.span ∧ t.sess = s.sess ∧ t.mem = { s.mem with undef := t.mem.undef } ∧ t.sem = s.sem ∧ t.mbx = s.mbx ∧ t.time = s.time

/-- R372, R378, R386 and R388. -/
def Obligations.DeviceFaults : Prop :=
  (∀ (c : Instr) (s : State), (∃ table, c = .controlTableError table false) ∨ c = .securitySelfCheckFailed →
    (s.clk.alive = false → exec c s = .next s) ∧
    (s.clk.alive = true → s.inGf = false → ∃ t, exec c s = .next t ∧ Obligations.entersGf s t) ∧
    (s.clk.alive = true → s.inGf = true → ∃ t, exec c s = .next t ∧ Obligations.onlyRecorded s t 2)) ∧
  (∀ (table : Fin 7) (s : State), (s.clk.alive = false → exec (.controlTableError table true) s = .next s) ∧
    (s.clk.alive = true → ∃ t, exec (.controlTableError table true) s = .next t ∧ Obligations.onlyRecorded s t 0)) ∧
  (∀ (pass0 pass1 : Bool) (s : State),
    let quiet := s.inGf = false ∨ s.fc.gfService = true ∨ s.fc.gfDead = true
    (quiet → exec (.groundFloorService pass0 pass1) s = .next s) ∧
    (¬ quiet → pass0 = false → pass1 = false →
      ∃ t, exec (.groundFloorService pass0 pass1) s = .next t ∧ t.fc.gfDead = true ∧ t.pairState 0 = 3 ∧ t.pairState 1 = 3 ∧
        (∀ o, o ≠ Reg.concStatus → t.reg o = s.reg o) ∧ t = { s with regs := t.regs, fc := { s.fc with gfDead := true } }) ∧
    (¬ quiet → pass0 = true ∨ pass1 = true → (s.qs.packets.map (·.id)).Nodup →
      ∃ t, exec (.groundFloorService pass0 pass1) s = .next t ∧ t.inGf = true ∧ t.fc.gfService = true ∧ t.span.frames = [] ∧
        (∀ q ∈ t.qs.packets, q.state = .fetched) ∧ (∀ c, t.ctx c = Context.reset) ∧ (∀ i, (t.session i).en = false) ∧
        (∀ p ∈ s.qs.packets, ∀ c, p.state = .running c → (∀ f ∈ s.span.frames, f.packet ≠ p.id) → ∀ d ∈ Obligations.answer s p 0x20 0 [0, 0, 0, 0],
          { d with crossedAt := if p.opc = 0x20 then some s.cyc else none } ∈ t.qs.held) ∧
        (pass0 = true → t.pairState 0 = 1) ∧ (pass0 = false → t.pairState 0 = 3 ∧ t.pairState 1 = 1) ∧
        t.mem = { s.mem with undef := t.mem.undef } ∧ t.sem = s.sem ∧ t.mbx = s.mbx))

/-- Command `c` writes DEV.CTRL with RESET set for agent `a`. -/
def Obligations.writesReset (s : State) (c : Instr) (a : Agent) : Prop :=
  (∃ v, bit v 31 = true ∧ (c = .reset a v ∨ c = .engineEnSet a v ∨ c = .engineEnClear a v)) ∨
  (∃ (off size : Nat) (v : BitVec 64), c = .registerWrite a off size v ∧
    ((off = Reg.devCtrl ∧ bit (v.extractLsb' 0 32) 31 = true) ∨ (off + 4 = Reg.devCtrl ∧ bit (v.extractLsb' 32 32) 31 = true))) ∨
  (∃ (x : Ctx) (m : Mw) (stall : Nat), (c = .key x m stall ∨ c = .done x m stall ∨ c = .hand x m stall) ∧
    a = mwAgent x.pair Reg.devCtrl ∧ ∃ e ∈ (s.ctx x).journal, e.isBuf = false ∧ e.addr = Reg.devCtrl ∧ bit e.data 31 = true)

/-- R389. -/
def Obligations.OnlyResetLeavesGroundFloor : Prop :=
  (∀ (c : Instr) (s t : State), s.inGf = true → exec c s = .next t → t.inGf = false →
    (∃ held, c = .porNAssert held ∧ 1000 ≤ held) ∨ ∃ a, s.holds0 a = true ∧ Obligations.writesReset s c a) ∧
  (∀ (held : Nat) (s : State), 1000 ≤ held → ∃ t, exec (.porNAssert held) s = .next t ∧ t.inGf = false) ∧
  (∀ (a : Agent) (v : Word) (s : State), s.live a = true → s.admits a Reg.devCtrl = true → s.holds0 a = true → bit v 31 = true →
    ∃ t, exec (.reset a v) s = .next t ∧ t.inGf = false)

/-- The invariant of Safety.lean over every step. -/
def Obligations.EveryStepKeepsInv : Prop := ∀ (s t : State), Inv s → step s = .next t → Inv t

/-- Reset has `Inv` and `legalHolders`, with nothing listed, held or waiting. -/
def Obligations.ResetHasInvariants : Prop :=
  Inv State.reset ∧ Obligations.legalHolders State.reset ∧ State.reset.mem.cells = [] ∧ State.reset.pending = [] ∧
  (∀ n, State.reset.holder n = 0) ∧ ∀ n, (State.reset.box n).e0.queue = [] ∧ (State.reset.box n).e1.queue = []

end
end

