-- ==== Sys2Proof/Laws/Bits.lean ====
section
/-! SUPPORT. Reading a field of a word after a field was set. -/

namespace Sys2Proof.Machine

theorem mask_testBit (lo len i : Nat) : ((2 ^ len - 1) * 2 ^ lo).testBit i = (decide (lo ≤ i) && decide (i < lo + len)) := by
  rw [← Nat.shiftLeft_eq, Nat.testBit_shiftLeft, Nat.testBit_two_pow_sub_one]
  by_cases h : lo ≤ i
  · simp only [ge_iff_le, h, decide_true, Bool.true_and, decide_eq_decide]; omega
  · simp [h]

theorem value_testBit (lo len v i : Nat) :
    (v % 2 ^ len * 2 ^ lo).testBit i = (decide (lo ≤ i) && decide (i < lo + len) && v.testBit (i - lo)) := by
  rw [← Nat.shiftLeft_eq, Nat.testBit_shiftLeft, Nat.testBit_mod_two_pow]
  by_cases h : lo ≤ i
  · have : (i - lo < len) = (i < lo + len) := by simp only [eq_iff_iff]; omega
    simp [h, this]
  · simp [h]

/-- Bit `i` of a word with a field set. -/
theorem setFld_getLsbD (w : Word) (lo len v i : Nat) (h : i < 32) :
    (setFld w lo len v).getLsbD i = if lo ≤ i ∧ i < lo + len then v.testBit (i - lo) else w.getLsbD i := by
  simp only [setFld, fmask, BitVec.getLsbD_or, BitVec.getLsbD_and, BitVec.getLsbD_not, BitVec.getLsbD_ofNat,
    mask_testBit, value_testBit, h, decide_true, Bool.true_and]
  by_cases h1 : lo ≤ i
  · by_cases h2 : i < lo + len <;> simp [h1, h2]
  · simp [h1]

theorem fld_setFld_same (w : Word) (lo len v : Nat) (h : lo + len ≤ 32) : fld (setFld w lo len v) lo len = v % 2 ^ len := by
  apply Nat.eq_of_testBit_eq
  intro i
  simp only [fld, ← BitVec.getLsbD.eq_1, BitVec.getLsbD_extractLsb', Nat.testBit_mod_two_pow]
  by_cases hi : i < len
  · have h32 : lo + i < 32 := by omega
    have hlt : lo + i < lo + len := by omega
    simp [hi, setFld_getLsbD _ _ _ _ _ h32]
  · simp [hi]

theorem fld_setFld_disjoint (w : Word) (lo len v lo' len' : Nat) (h : lo' + len' ≤ lo ∨ lo + len ≤ lo') :
    fld (setFld w lo len v) lo' len' = fld w lo' len' := by
  apply Nat.eq_of_testBit_eq
  intro i
  simp only [fld, ← BitVec.getLsbD.eq_1, BitVec.getLsbD_extractLsb']
  by_cases hi : i < len'
  · by_cases h32 : lo' + i < 32
    · have : ¬(lo ≤ lo' + i ∧ lo' + i < lo + len) := by omega
      simp [hi, setFld_getLsbD _ _ _ _ _ h32, this]
    · simp [BitVec.getLsbD_of_ge _ _ (Nat.le_of_not_lt h32)]
  · simp [hi]

theorem bit_eq_getLsbD (w : Word) (i : Nat) : bit w i = w.getLsbD i := rfl

theorem bit_setFld_disjoint (w : Word) (lo len v i : Nat) (h : i < lo ∨ lo + len ≤ i) :
    bit (setFld w lo len v) i = bit w i := by
  by_cases h32 : i < 32
  · have : ¬(lo ≤ i ∧ i < lo + len) := by omega
    simp [bit, setFld_getLsbD _ _ _ _ _ h32, this]
  · simp [bit, BitVec.getLsbD_of_ge _ _ (Nat.le_of_not_lt h32)]

theorem bit_setFld_one (w : Word) (i v : Nat) (h : i < 32) : bit (setFld w i 1 v) i = v.testBit 0 := by
  simp [bit, setFld_getLsbD _ _ _ _ _ h]

theorem b2n_testBit (b : Bool) : (b2n b).testBit 0 = b := by cases b <;> rfl

theorem bit_setBit_same (w : Word) (i : Nat) (b : Bool) (h : i < 32) : bit (setFld w i 1 (b2n b)) i = b := by
  rw [bit_setFld_one _ _ _ h, b2n_testBit]

end Sys2Proof.Machine
end

