-- ==== Sys2Proof/Laws/Table.lean ====
section
/-! SUPPORT. What a read of a sparse table gives after an update. -/

namespace Sys2Proof.Machine

theorem Tbl.get_put_same {α : Type} (t : Tbl α) (k : Nat) (v d : α) : (t.put k v).get k d = v := by
  induction t with
  | nil => simp [Tbl.put, Tbl.get]
  | cons e r ih =>
    obtain ⟨j, w⟩ := e
    simp only [Tbl.put]
    split
    · simp [Tbl.get]
    · split
      · simp [Tbl.get]
      · rename_i h; simp [Tbl.get, ih, Ne.symm h]

theorem Tbl.get_put_ne {α : Type} (t : Tbl α) (k m : Nat) (v d : α) (h : m ≠ k) : (t.put k v).get m d = t.get m d := by
  induction t with
  | nil => simp [Tbl.put, Tbl.get, Ne.symm h]
  | cons e r ih =>
    obtain ⟨j, w⟩ := e
    simp only [Tbl.put]
    split
    · simp [Tbl.get, Ne.symm h]
    · split
      · rename_i hj; subst hj; simp [Tbl.get, Ne.symm h]
      · simp [Tbl.get, ih]

theorem Tbl.find_put_same {α : Type} (t : Tbl α) (k : Nat) (v : α) : (t.put k v).find k = some v := by
  induction t with
  | nil => simp [Tbl.put, Tbl.find]
  | cons e r ih =>
    obtain ⟨j, w⟩ := e
    simp only [Tbl.put]
    split
    · simp [Tbl.find]
    · split
      · simp [Tbl.find]
      · rename_i h; simp [Tbl.find, ih, Ne.symm h]

theorem Tbl.find_put_ne {α : Type} (t : Tbl α) (k m : Nat) (v : α) (h : m ≠ k) : (t.put k v).find m = t.find m := by
  induction t with
  | nil => simp [Tbl.put, Tbl.find, Ne.symm h]
  | cons e r ih =>
    obtain ⟨j, w⟩ := e
    simp only [Tbl.put]
    split
    · simp [Tbl.find, Ne.symm h]
    · split
      · rename_i hj; subst hj; simp [Tbl.find, Ne.symm h]
      · simp [Tbl.find, ih]

theorem Tbl.find_del_same {α : Type} (t : Tbl α) (k : Nat) : (t.del k).find k = none := by
  induction t with
  | nil => simp [Tbl.del, Tbl.find]
  | cons e r ih =>
    obtain ⟨j, w⟩ := e
    unfold Tbl.del at ih ⊢
    by_cases h : j = k
    · simpa [List.filter_cons, h] using ih
    · simpa [List.filter_cons, h, Tbl.find] using ih

theorem Tbl.find_del_ne {α : Type} (t : Tbl α) (k m : Nat) (h : m ≠ k) : (t.del k).find m = t.find m := by
  induction t with
  | nil => simp [Tbl.del, Tbl.find]
  | cons e r ih =>
    obtain ⟨j, w⟩ := e
    unfold Tbl.del at ih ⊢
    by_cases hj : j = k
    · subst hj; simpa [List.filter_cons, Tbl.find, Ne.symm h] using ih
    · simp [hj, Tbl.find, ih]

/-- A member of an updated table is the new entry or was a member before. -/
theorem Tbl.mem_put {α : Type} (t : Tbl α) (k : Nat) (v : α) (e : Nat × α) (h : e ∈ t.put k v) : e = (k, v) ∨ e ∈ t := by
  induction t with
  | nil => simpa [Tbl.put] using h
  | cons f r ih =>
    obtain ⟨j, w⟩ := f
    simp only [Tbl.put] at h
    split at h
    · simpa using h
    · split at h
      · rcases List.mem_cons.1 h with h | h
        · exact .inl h
        · exact .inr (List.mem_cons_of_mem _ h)
      · rcases List.mem_cons.1 h with h | h
        · exact .inr (by simp [h])
        · exact (ih h).imp id (List.mem_cons_of_mem _)

end Sys2Proof.Machine
end

