-- ==== Sys2Proof/Laws/Memory.lean ====
section
/-! SUPPORT. Device memory: what a read gives after a write, and that every operation keeps the canonical form. -/

namespace Sys2Proof.Machine

theorem Tbl.get_eq_find {α : Type} (t : Tbl α) (k : Nat) (d : α) : t.get k d = (t.find k).getD d := by
  induction t with
  | nil => rfl
  | cons e r ih =>
    obtain ⟨j, v⟩ := e
    by_cases h : j = k
    · simp [Tbl.get, Tbl.find, h]
    · simp [Tbl.get, Tbl.find, h, ih]

-- A read after a write --------------------------------------------------------------------------------------

@[simp] theorem Mem.write_bg (m : Mem) (a : Nat) (b : Byte) (c : Nat) : (m.write a b).bg c = m.bg c := rfl

theorem Mem.cell_write_same (m : Mem) (a : Nat) (b : Byte) : (m.write a b).cell a = b := by
  unfold Mem.cell Mem.write
  by_cases h : b = m.bg a
  · rw [if_pos h, Tbl.get_eq_find, Tbl.find_del_same]; exact h.symm
  · rw [if_neg h, Tbl.get_put_same]

theorem Mem.cell_write_ne (m : Mem) (a c : Nat) (b : Byte) (h : c ≠ a) : (m.write a b).cell c = m.cell c := by
  unfold Mem.cell Mem.write
  by_cases hb : b = m.bg a
  · simp only [if_pos hb, Tbl.get_eq_find, Tbl.find_del_ne _ _ _ h]; rfl
  · simp only [if_neg hb, Tbl.get_put_ne _ _ _ _ _ h]; rfl

/-- Every byte outside the range written is as before. -/
theorem Mem.cell_writeN_out (bs : List Byte) : ∀ (m : Mem) (a c : Nat), c < a ∨ a + bs.length ≤ c →
    (m.writeN a bs).cell c = m.cell c := by
  induction bs with
  | nil => intros; rfl
  | cons b r ih =>
    intro m a c h
    simp only [Mem.writeN, List.length_cons] at h ⊢
    rw [ih _ _ _ (by omega), Mem.cell_write_ne _ _ _ _ (by omega)]

/-- Byte `i` of the range written is the byte given. -/
theorem Mem.cell_writeN_in (bs : List Byte) : ∀ (m : Mem) (a i : Nat) (h : i < bs.length),
    (m.writeN a bs).cell (a + i) = bs[i] := by
  induction bs with
  | nil => intro m a i h; simp at h
  | cons b r ih =>
    intro m a i h
    simp only [Mem.writeN]
    cases i with
    | zero =>
      rw [Mem.cell_writeN_out _ _ _ _ (by omega)]
      exact Mem.cell_write_same m a b
    | succ n =>
      have := ih (m.write a b) (a + 1) n (by simpa using h)
      rw [show a + (n + 1) = a + 1 + n by omega, this]; rfl

@[simp] theorem Mem.writeN_undef (bs : List Byte) : ∀ (m : Mem) (a : Nat), (m.writeN a bs).undef = m.undef := by
  induction bs with
  | nil => intros; rfl
  | cons b r ih => intro m a; exact ih _ _

theorem Mem.writeN_undefAt (bs : List Byte) (m : Mem) (a c : Nat) : (m.writeN a bs).undefAt c = m.undefAt c := by
  unfold Mem.undefAt; rw [Mem.writeN_undef]

@[simp] theorem Mem.unpoison_read (m : Mem) (a n c : Nat) : (m.unpoison a n).read c = m.read c := rfl

@[simp] theorem Mem.poison_read (m : Mem) (a c : Nat) : (m.poison a).read c = m.read c := by
  unfold Mem.poison; split <;> rfl

/-- What a write leaves of one undefined range covers an address outside it exactly when the range does. -/
theorem Undef.outside_find (u : Undef) (a n c : Nat) (h : c < a ∨ a + n ≤ c) :
    ((Undef.outside a n u).find? fun v => decide (v.start ≤ c) && decide (c < v.stop)).map (·.idx) =
      if u.start ≤ c ∧ c < u.stop then some u.idx else none := by
  unfold Undef.outside
  by_cases hl : u.live = true
  · rw [if_pos hl]
    by_cases hu : u.start ≤ c ∧ c < u.stop <;> simp [hu]
  rw [if_neg hl]
  by_cases hu : u.start ≤ c ∧ c < u.stop
  · rw [if_pos hu]
    rcases h with h | h
    · have h1 : decide (u.start < min u.stop a) = true := by simp; omega
      have h2 : (decide (u.start ≤ c) && decide (c < min u.stop a)) = true := by simp; omega
      simp only [List.filter_cons]; rw [if_pos h1]; simp only [List.find?_cons]; rw [h2]; rfl
    · have h1 : decide (max u.start (a + n) < u.stop) = true := by simp; omega
      have h2 : (decide (max u.start (a + n) ≤ c) && decide (c < u.stop)) = true := by simp; omega
      have h3 : (decide (u.start ≤ c) && decide (c < min u.stop a)) = false := by simp; omega
      by_cases h4 : decide (u.start < min u.stop a) = true
      · simp only [List.filter_cons]; rw [if_pos h4, if_pos h1]; simp only [List.find?_cons]; rw [h3, h2]; rfl
      · simp only [List.filter_cons]; rw [if_neg h4, if_pos h1]; simp only [List.find?_cons]; rw [h2]; rfl
  · rw [if_neg hu, Option.map_eq_none_iff, List.find?_eq_none]
    intro v hv
    have hm := (List.mem_filter.1 hv).1
    simp only [List.mem_cons, List.not_mem_nil, or_false] at hm
    rcases hm with rfl | rfl <;> simp <;> omega

/-- Outside a write, what is undefined stays so, with its free value. -/
theorem Mem.define_undefAt_out (m : Mem) (a n c : Nat) (h : c < a ∨ a + n ≤ c) : (m.define a n).undefAt c = m.undefAt c := by
  unfold Mem.undefAt Mem.define
  induction m.undef with
  | nil => rfl
  | cons u r ih =>
    have hf := u.outside_find a n c h
    simp only [List.flatMap_cons, List.find?_append, List.find?_cons] at ih ⊢
    by_cases hu : u.start ≤ c ∧ c < u.stop
    · rw [if_pos hu] at hf
      obtain ⟨v, hv, hi⟩ := Option.map_eq_some_iff.1 hf
      simp [hv, hu.1, hu.2, hi]
    · rw [if_neg hu, Option.map_eq_none_iff] at hf
      have h0 : (decide (u.start ≤ c) && decide (c < u.stop)) = false := by simpa using hu
      rw [hf, h0]
      exact ih

/-- Inside a write nothing is undefined but outputs of pictures that have not completed. -/
theorem Mem.define_undefAt_in (m : Mem) (a n c : Nat) (h1 : a ≤ c) (h2 : c < a + n) (hc : m.claimed c = false) :
    (m.define a n).undefAt c = none := by
  unfold Mem.undefAt Mem.define
  rw [Option.map_eq_none_iff, List.find?_eq_none]
  intro v hv
  obtain ⟨u, hu, hv⟩ := List.mem_flatMap.1 hv
  have hn := (List.any_eq_false.1 hc) u hu
  unfold Undef.outside at hv
  by_cases hl : u.live = true
  · rw [if_pos hl] at hv
    obtain rfl := List.mem_singleton.1 hv
    simpa [hl] using hn
  rw [if_neg hl] at hv
  have hm := (List.mem_filter.1 hv).1
  simp only [List.mem_cons, List.not_mem_nil, or_false] at hm
  rcases hm with rfl | rfl <;> simp <;> omega

/-- Every byte outside a store reads as before. -/
theorem Mem.read_store_out (m : Mem) (a c : Nat) (bs : List Byte) (h : c < a ∨ a + bs.length ≤ c) :
    (m.store a bs).read c = m.read c := by
  have hu : (m.store a bs).undefAt c = m.undefAt c := by
    unfold Mem.store; rw [Mem.writeN_undefAt]; exact Mem.define_undefAt_out m a _ c h
  have hc : (m.store a bs).cell c = m.cell c := by
    unfold Mem.store; rw [Mem.cell_writeN_out _ _ _ _ h]; rfl
  unfold Mem.read; rw [hu, hc]

/-- Byte `i` of a store reads as the byte given, unless a picture that has not completed claims it. -/
theorem Mem.read_store_in (m : Mem) (a i : Nat) (bs : List Byte) (h : i < bs.length) (hc : m.claimed (a + i) = false) :
    (m.store a bs).read (a + i) = bs[i] := by
  have hu : (m.store a bs).undefAt (a + i) = none := by
    unfold Mem.store; rw [Mem.writeN_undefAt]; exact Mem.define_undefAt_in m a _ _ (by omega) (by omega) hc
  unfold Mem.read; rw [hu]
  exact Mem.cell_writeN_in bs _ a i h

-- The canonical form ----------------------------------------------------------------------------------------

theorem Tbl.pairwise_put {α : Type} (t : Tbl α) (k : Nat) (v : α) (h : t.Pairwise fun x y => x.1 < y.1) :
    (t.put k v).Pairwise fun x y => x.1 < y.1 := by
  induction t with
  | nil => simp [Tbl.put]
  | cons e r ih =>
    obtain ⟨j, w⟩ := e
    rw [List.pairwise_cons] at h
    simp only [Tbl.put]
    split
    · rename_i hk
      refine List.pairwise_cons.2 ⟨fun x hx => ?_, List.pairwise_cons.2 h⟩
      rcases List.mem_cons.1 hx with rfl | hx
      · exact hk
      · exact Nat.lt_trans hk (h.1 x hx)
    · split
      · rename_i hk; subst hk; exact List.pairwise_cons.2 h
      · refine List.pairwise_cons.2 ⟨fun x hx => ?_, ih h.2⟩
        rcases Tbl.mem_put r k v x hx with rfl | hx
        · show j < k; omega
        · exact h.1 x hx

theorem Mem.write_wf (m : Mem) (a : Nat) (b : Byte) (h : m.wf) : (m.write a b).wf := by
  obtain ⟨hp, hb⟩ := h
  unfold Mem.write Mem.wf
  split
  · exact ⟨hp.filter _, fun c hc => hb c (List.mem_filter.1 hc).1⟩
  · rename_i hne
    refine ⟨Tbl.pairwise_put _ _ _ hp, fun c hc => ?_⟩
    rcases Tbl.mem_put _ _ _ _ hc with rfl | hc
    · exact hne
    · exact hb c hc

theorem Mem.writeN_wf (bs : List Byte) : ∀ (m : Mem) (a : Nat), m.wf → (m.writeN a bs).wf := by
  induction bs with
  | nil => intro m a h; exact h
  | cons b r ih => intro m a h; exact ih _ _ (m.write_wf a b h)

theorem Mem.define_wf (m : Mem) (a n : Nat) (h : m.wf) : (m.define a n).wf := h

theorem Mem.undefine_wf (m : Mem) (f k : Nat) (rs : List (Nat × Nat)) (h : m.wf) : (m.undefine f k rs).wf := h

theorem Mem.settled_wf (m : Mem) (f : Nat) (h : m.wf) : (m.settled f).wf := h

theorem Mem.ended_wf (m : Mem) (f : Nat) (h : m.wf) : (m.ended f).wf := h

theorem Mem.dismissed_wf (m : Mem) (p : Nat) (h : m.wf) : (m.dismissed p).wf := h

theorem Mem.renumbered_wf (m : Mem) (g : Nat → Nat) (h : m.wf) : (m.renumbered g).wf := h

theorem Mem.unpoison_wf (m : Mem) (a n : Nat) (h : m.wf) : (m.unpoison a n).wf := h

theorem Mem.store_wf (m : Mem) (a : Nat) (bs : List Byte) (h : m.wf) : (m.store a bs).wf := Mem.writeN_wf _ _ _ h

theorem Mem.poison_wf (m : Mem) (a : Nat) (h : m.wf) : (m.poison a).wf := by
  unfold Mem.poison; split <;> exact h

theorem Mem.zeroAll_wf (m : Mem) : m.zeroAll.wf := ⟨List.Pairwise.nil, fun c hc => by simp [Mem.zeroAll] at hc⟩

theorem Mem.undefineAll_wf (m : Mem) : m.undefineAll.wf := ⟨List.Pairwise.nil, fun c hc => by simp [Mem.undefineAll] at hc⟩

theorem Mem.zeroRange_wf (m : Mem) (a n : Nat) (h : m.wf) : (m.zeroRange a n).wf := by
  unfold Mem.zeroRange
  dsimp only
  split
  · exact ⟨h.1.filter _, fun c hc => h.2 c (List.mem_filter.1 hc).1⟩
  · exact Mem.writeN_wf _ _ _ h

/-- Memory after reset has the canonical form. -/
theorem State.reset_mem_wf : State.reset.mem.wf := ⟨List.Pairwise.nil, fun c hc => by simp [State.reset] at hc⟩

end Sys2Proof.Machine
end

