-- ==== Sys2Proof/Laws/State.lean ====
section
/-! SUPPORT. What each update of the state leaves alone: one lemma per setter and field, true by `rfl`, and what
the setters do to the part they set. -/

namespace Sys2Proof.Machine

@[simp] theorem State.setReg_pending (s : State) (off : Nat) (v : Word) : (s.setReg off v).pending = s.pending := rfl
@[simp] theorem State.setReg_out (s : State) (off : Nat) (v : Word) : (s.setReg off v).out = s.out := rfl
@[simp] theorem State.setReg_free (s : State) (off : Nat) (v : Word) : (s.setReg off v).free = s.free := rfl
@[simp] theorem State.setReg_fresh (s : State) (off : Nat) (v : Word) : (s.setReg off v).fresh = s.fresh := rfl
@[simp] theorem State.setReg_freshAt (s : State) (off : Nat) (v : Word) : (s.setReg off v).freshAt = s.freshAt := rfl
@[simp] theorem State.setReg_time (s : State) (off : Nat) (v : Word) : (s.setReg off v).time = s.time := rfl
@[simp] theorem State.setReg_agents (s : State) (off : Nat) (v : Word) : (s.setReg off v).agents = s.agents := rfl
@[simp] theorem State.setReg_fns (s : State) (off : Nat) (v : Word) : (s.setReg off v).fns = s.fns := rfl
@[simp] theorem State.setReg_ports (s : State) (off : Nat) (v : Word) : (s.setReg off v).ports = s.ports := rfl
@[simp] theorem State.setReg_sem (s : State) (off : Nat) (v : Word) : (s.setReg off v).sem = s.sem := rfl
@[simp] theorem State.setReg_mbx (s : State) (off : Nat) (v : Word) : (s.setReg off v).mbx = s.mbx := rfl
@[simp] theorem State.setReg_ic (s : State) (off : Nat) (v : Word) : (s.setReg off v).ic = s.ic := rfl
@[simp] theorem State.setReg_tmr (s : State) (off : Nat) (v : Word) : (s.setReg off v).tmr = s.tmr := rfl
@[simp] theorem State.setReg_fc (s : State) (off : Nat) (v : Word) : (s.setReg off v).fc = s.fc := rfl
@[simp] theorem State.setReg_qs (s : State) (off : Nat) (v : Word) : (s.setReg off v).qs = s.qs := rfl
@[simp] theorem State.setReg_sess (s : State) (off : Nat) (v : Word) : (s.setReg off v).sess = s.sess := rfl
@[simp] theorem State.setReg_span (s : State) (off : Nat) (v : Word) : (s.setReg off v).span = s.span := rfl
@[simp] theorem State.setReg_flows (s : State) (off : Nat) (v : Word) : (s.setReg off v).flows = s.flows := rfl
@[simp] theorem State.setReg_tgTime (s : State) (off : Nat) (v : Word) : (s.setReg off v).tgTime = s.tgTime := rfl
@[simp] theorem State.setReg_tgFree (s : State) (off : Nat) (v : Word) : (s.setReg off v).tgFree = s.tgFree := rfl
@[simp] theorem State.setReg_tgRefill (s : State) (off : Nat) (v : Word) : (s.setReg off v).tgRefill = s.tgRefill := rfl
@[simp] theorem State.setReg_bpm (s : State) (off : Nat) (v : Word) : (s.setReg off v).bpm = s.bpm := rfl
@[simp] theorem State.setReg_dma (s : State) (off : Nat) (v : Word) : (s.setReg off v).dma = s.dma := rfl
@[simp] theorem State.setReg_mem (s : State) (off : Nat) (v : Word) : (s.setReg off v).mem = s.mem := rfl
@[simp] theorem State.setReg_mc (s : State) (off : Nat) (v : Word) : (s.setReg off v).mc = s.mc := rfl
@[simp] theorem State.setReg_conc (s : State) (off : Nat) (v : Word) : (s.setReg off v).conc = s.conc := rfl
@[simp] theorem State.setReg_sec (s : State) (off : Nat) (v : Word) : (s.setReg off v).sec = s.sec := rfl
@[simp] theorem State.setReg_clk (s : State) (off : Nat) (v : Word) : (s.setReg off v).clk = s.clk := rfl
@[simp] theorem State.setReg_board (s : State) (off : Nat) (v : Word) : (s.setReg off v).board = s.board := rfl
@[simp] theorem State.setReg_agent (s : State) (off : Nat) (v : Word) (n : Nat) : (s.setReg off v).agent n = s.agent n := rfl
@[simp] theorem State.setReg_fn (s : State) (off : Nat) (v : Word) (n : Nat) : (s.setReg off v).fn n = s.fn n := rfl
@[simp] theorem State.setReg_port (s : State) (off : Nat) (v : Word) (n : Nat) : (s.setReg off v).port n = s.port n := rfl
@[simp] theorem State.setReg_holder (s : State) (off : Nat) (v : Word) (n : Nat) : (s.setReg off v).holder n = s.holder n := rfl
@[simp] theorem State.setReg_ist (s : State) (off : Nat) (v : Word) (n : Nat) : (s.setReg off v).ist n = s.ist n := rfl
@[simp] theorem State.setReg_box (s : State) (off : Nat) (v : Word) (n : Nat) : (s.setReg off v).box n = s.box n := rfl
@[simp] theorem State.setReg_buf (s : State) (off : Nat) (v : Word) (n : Nat) : (s.setReg off v).buf n = s.buf n := rfl
@[simp] theorem State.setReg_flow (s : State) (off : Nat) (v : Word) (n : Nat) : (s.setReg off v).flow n = s.flow n := rfl
@[simp] theorem State.setReg_ctx (s : State) (off : Nat) (v : Word) (n : Ctx) : (s.setReg off v).ctx n = s.ctx n := rfl
@[simp] theorem State.setReg_session (s : State) (off : Nat) (v : Word) (n : Nat) : (s.setReg off v).session n = s.session n := rfl
@[simp] theorem State.setReg_queue (s : State) (off : Nat) (v : Word) (n : Nat) : (s.setReg off v).queue n = s.queue n := rfl
@[simp] theorem State.setReg_chan (s : State) (off : Nat) (v : Word) (n : Nat) : (s.setReg off v).chan n = s.chan n := rfl
@[simp] theorem State.setReg_now (s : State) (off : Nat) (v : Word)  : (s.setReg off v).now  = s.now  := rfl
@[simp] theorem State.setReg_cyc (s : State) (off : Nat) (v : Word)  : (s.setReg off v).cyc  = s.cyc  := rfl
@[simp] theorem State.emit_pending (s : State) (e : Emit) : (s.emit e).pending = s.pending := rfl
@[simp] theorem State.emit_free (s : State) (e : Emit) : (s.emit e).free = s.free := rfl
@[simp] theorem State.emit_regs (s : State) (e : Emit) : (s.emit e).regs = s.regs := rfl
@[simp] theorem State.emit_fresh (s : State) (e : Emit) : (s.emit e).fresh = s.fresh := rfl
@[simp] theorem State.emit_freshAt (s : State) (e : Emit) : (s.emit e).freshAt = s.freshAt := rfl
@[simp] theorem State.emit_time (s : State) (e : Emit) : (s.emit e).time = s.time := rfl
@[simp] theorem State.emit_agents (s : State) (e : Emit) : (s.emit e).agents = s.agents := rfl
@[simp] theorem State.emit_fns (s : State) (e : Emit) : (s.emit e).fns = s.fns := rfl
@[simp] theorem State.emit_ports (s : State) (e : Emit) : (s.emit e).ports = s.ports := rfl
@[simp] theorem State.emit_sem (s : State) (e : Emit) : (s.emit e).sem = s.sem := rfl
@[simp] theorem State.emit_mbx (s : State) (e : Emit) : (s.emit e).mbx = s.mbx := rfl
@[simp] theorem State.emit_ic (s : State) (e : Emit) : (s.emit e).ic = s.ic := rfl
@[simp] theorem State.emit_tmr (s : State) (e : Emit) : (s.emit e).tmr = s.tmr := rfl
@[simp] theorem State.emit_fc (s : State) (e : Emit) : (s.emit e).fc = s.fc := rfl
@[simp] theorem State.emit_qs (s : State) (e : Emit) : (s.emit e).qs = s.qs := rfl
@[simp] theorem State.emit_sess (s : State) (e : Emit) : (s.emit e).sess = s.sess := rfl
@[simp] theorem State.emit_span (s : State) (e : Emit) : (s.emit e).span = s.span := rfl
@[simp] theorem State.emit_flows (s : State) (e : Emit) : (s.emit e).flows = s.flows := rfl
@[simp] theorem State.emit_tgTime (s : State) (e : Emit) : (s.emit e).tgTime = s.tgTime := rfl
@[simp] theorem State.emit_tgFree (s : State) (e : Emit) : (s.emit e).tgFree = s.tgFree := rfl
@[simp] theorem State.emit_tgRefill (s : State) (e : Emit) : (s.emit e).tgRefill = s.tgRefill := rfl
@[simp] theorem State.emit_bpm (s : State) (e : Emit) : (s.emit e).bpm = s.bpm := rfl
@[simp] theorem State.emit_dma (s : State) (e : Emit) : (s.emit e).dma = s.dma := rfl
@[simp] theorem State.emit_mem (s : State) (e : Emit) : (s.emit e).mem = s.mem := rfl
@[simp] theorem State.emit_mc (s : State) (e : Emit) : (s.emit e).mc = s.mc := rfl
@[simp] theorem State.emit_conc (s : State) (e : Emit) : (s.emit e).conc = s.conc := rfl
@[simp] theorem State.emit_sec (s : State) (e : Emit) : (s.emit e).sec = s.sec := rfl
@[simp] theorem State.emit_clk (s : State) (e : Emit) : (s.emit e).clk = s.clk := rfl
@[simp] theorem State.emit_board (s : State) (e : Emit) : (s.emit e).board = s.board := rfl
@[simp] theorem State.emit_reg (s : State) (e : Emit) (o : Nat) : (s.emit e).reg o = s.reg o := rfl
@[simp] theorem State.emit_regF (s : State) (e : Emit) (o l n : Nat) : (s.emit e).regF o l n = s.regF o l n := rfl
@[simp] theorem State.emit_regB (s : State) (e : Emit) (o j : Nat) : (s.emit e).regB o j = s.regB o j := rfl
@[simp] theorem State.emit_agent (s : State) (e : Emit) (n : Nat) : (s.emit e).agent n = s.agent n := rfl
@[simp] theorem State.emit_fn (s : State) (e : Emit) (n : Nat) : (s.emit e).fn n = s.fn n := rfl
@[simp] theorem State.emit_port (s : State) (e : Emit) (n : Nat) : (s.emit e).port n = s.port n := rfl
@[simp] theorem State.emit_holder (s : State) (e : Emit) (n : Nat) : (s.emit e).holder n = s.holder n := rfl
@[simp] theorem State.emit_ist (s : State) (e : Emit) (n : Nat) : (s.emit e).ist n = s.ist n := rfl
@[simp] theorem State.emit_box (s : State) (e : Emit) (n : Nat) : (s.emit e).box n = s.box n := rfl
@[simp] theorem State.emit_buf (s : State) (e : Emit) (n : Nat) : (s.emit e).buf n = s.buf n := rfl
@[simp] theorem State.emit_flow (s : State) (e : Emit) (n : Nat) : (s.emit e).flow n = s.flow n := rfl
@[simp] theorem State.emit_ctx (s : State) (e : Emit) (n : Ctx) : (s.emit e).ctx n = s.ctx n := rfl
@[simp] theorem State.emit_session (s : State) (e : Emit) (n : Nat) : (s.emit e).session n = s.session n := rfl
@[simp] theorem State.emit_queue (s : State) (e : Emit) (n : Nat) : (s.emit e).queue n = s.queue n := rfl
@[simp] theorem State.emit_chan (s : State) (e : Emit) (n : Nat) : (s.emit e).chan n = s.chan n := rfl
@[simp] theorem State.emit_now (s : State) (e : Emit)  : (s.emit e).now  = s.now  := rfl
@[simp] theorem State.emit_cyc (s : State) (e : Emit)  : (s.emit e).cyc  = s.cyc  := rfl
@[simp] theorem State.setAgent_pending (s : State) (code : Nat) (a : AgentSt) : (s.setAgent code a).pending = s.pending := rfl
@[simp] theorem State.setAgent_out (s : State) (code : Nat) (a : AgentSt) : (s.setAgent code a).out = s.out := rfl
@[simp] theorem State.setAgent_free (s : State) (code : Nat) (a : AgentSt) : (s.setAgent code a).free = s.free := rfl
@[simp] theorem State.setAgent_regs (s : State) (code : Nat) (a : AgentSt) : (s.setAgent code a).regs = s.regs := rfl
@[simp] theorem State.setAgent_fresh (s : State) (code : Nat) (a : AgentSt) : (s.setAgent code a).fresh = s.fresh := rfl
@[simp] theorem State.setAgent_freshAt (s : State) (code : Nat) (a : AgentSt) : (s.setAgent code a).freshAt = s.freshAt := rfl
@[simp] theorem State.setAgent_time (s : State) (code : Nat) (a : AgentSt) : (s.setAgent code a).time = s.time := rfl
@[simp] theorem State.setAgent_fns (s : State) (code : Nat) (a : AgentSt) : (s.setAgent code a).fns = s.fns := rfl
@[simp] theorem State.setAgent_ports (s : State) (code : Nat) (a : AgentSt) : (s.setAgent code a).ports = s.ports := rfl
@[simp] theorem State.setAgent_sem (s : State) (code : Nat) (a : AgentSt) : (s.setAgent code a).sem = s.sem := rfl
@[simp] theorem State.setAgent_mbx (s : State) (code : Nat) (a : AgentSt) : (s.setAgent code a).mbx = s.mbx := rfl
@[simp] theorem State.setAgent_ic (s : State) (code : Nat) (a : AgentSt) : (s.setAgent code a).ic = s.ic := rfl
@[simp] theorem State.setAgent_tmr (s : State) (code : Nat) (a : AgentSt) : (s.setAgent code a).tmr = s.tmr := rfl
@[simp] theorem State.setAgent_fc (s : State) (code : Nat) (a : AgentSt) : (s.setAgent code a).fc = s.fc := rfl
@[simp] theorem State.setAgent_qs (s : State) (code : Nat) (a : AgentSt) : (s.setAgent code a).qs = s.qs := rfl
@[simp] theorem State.setAgent_sess (s : State) (code : Nat) (a : AgentSt) : (s.setAgent code a).sess = s.sess := rfl
@[simp] theorem State.setAgent_span (s : State) (code : Nat) (a : AgentSt) : (s.setAgent code a).span = s.span := rfl
@[simp] theorem State.setAgent_flows (s : State) (code : Nat) (a : AgentSt) : (s.setAgent code a).flows = s.flows := rfl
@[simp] theorem State.setAgent_tgTime (s : State) (code : Nat) (a : AgentSt) : (s.setAgent code a).tgTime = s.tgTime := rfl
@[simp] theorem State.setAgent_tgFree (s : State) (code : Nat) (a : AgentSt) : (s.setAgent code a).tgFree = s.tgFree := rfl
@[simp] theorem State.setAgent_tgRefill (s : State) (code : Nat) (a : AgentSt) : (s.setAgent code a).tgRefill = s.tgRefill := rfl
@[simp] theorem State.setAgent_bpm (s : State) (code : Nat) (a : AgentSt) : (s.setAgent code a).bpm = s.bpm := rfl
@[simp] theorem State.setAgent_dma (s : State) (code : Nat) (a : AgentSt) : (s.setAgent code a).dma = s.dma := rfl
@[simp] theorem State.setAgent_mem (s : State) (code : Nat) (a : AgentSt) : (s.setAgent code a).mem = s.mem := rfl
@[simp] theorem State.setAgent_mc (s : State) (code : Nat) (a : AgentSt) : (s.setAgent code a).mc = s.mc := rfl
@[simp] theorem State.setAgent_conc (s : State) (code : Nat) (a : AgentSt) : (s.setAgent code a).conc = s.conc := rfl
@[simp] theorem State.setAgent_sec (s : State) (code : Nat) (a : AgentSt) : (s.setAgent code a).sec = s.sec := rfl
@[simp] theorem State.setAgent_clk (s : State) (code : Nat) (a : AgentSt) : (s.setAgent code a).clk = s.clk := rfl
@[simp] theorem State.setAgent_board (s : State) (code : Nat) (a : AgentSt) : (s.setAgent code a).board = s.board := rfl
@[simp] theorem State.setAgent_reg (s : State) (code : Nat) (a : AgentSt) (o : Nat) : (s.setAgent code a).reg o = s.reg o := rfl
@[simp] theorem State.setAgent_regF (s : State) (code : Nat) (a : AgentSt) (o l n : Nat) : (s.setAgent code a).regF o l n = s.regF o l n := rfl
@[simp] theorem State.setAgent_regB (s : State) (code : Nat) (a : AgentSt) (o j : Nat) : (s.setAgent code a).regB o j = s.regB o j := rfl
@[simp] theorem State.setAgent_fn (s : State) (code : Nat) (a : AgentSt) (n : Nat) : (s.setAgent code a).fn n = s.fn n := rfl
@[simp] theorem State.setAgent_port (s : State) (code : Nat) (a : AgentSt) (n : Nat) : (s.setAgent code a).port n = s.port n := rfl
@[simp] theorem State.setAgent_holder (s : State) (code : Nat) (a : AgentSt) (n : Nat) : (s.setAgent code a).holder n = s.holder n := rfl
@[simp] theorem State.setAgent_ist (s : State) (code : Nat) (a : AgentSt) (n : Nat) : (s.setAgent code a).ist n = s.ist n := rfl
@[simp] theorem State.setAgent_box (s : State) (code : Nat) (a : AgentSt) (n : Nat) : (s.setAgent code a).box n = s.box n := rfl
@[simp] theorem State.setAgent_buf (s : State) (code : Nat) (a : AgentSt) (n : Nat) : (s.setAgent code a).buf n = s.buf n := rfl
@[simp] theorem State.setAgent_flow (s : State) (code : Nat) (a : AgentSt) (n : Nat) : (s.setAgent code a).flow n = s.flow n := rfl
@[simp] theorem State.setAgent_ctx (s : State) (code : Nat) (a : AgentSt) (n : Ctx) : (s.setAgent code a).ctx n = s.ctx n := rfl
@[simp] theorem State.setAgent_session (s : State) (code : Nat) (a : AgentSt) (n : Nat) : (s.setAgent code a).session n = s.session n := rfl
@[simp] theorem State.setAgent_queue (s : State) (code : Nat) (a : AgentSt) (n : Nat) : (s.setAgent code a).queue n = s.queue n := rfl
@[simp] theorem State.setAgent_chan (s : State) (code : Nat) (a : AgentSt) (n : Nat) : (s.setAgent code a).chan n = s.chan n := rfl
@[simp] theorem State.setAgent_now (s : State) (code : Nat) (a : AgentSt)  : (s.setAgent code a).now  = s.now  := rfl
@[simp] theorem State.setAgent_cyc (s : State) (code : Nat) (a : AgentSt)  : (s.setAgent code a).cyc  = s.cyc  := rfl
@[simp] theorem State.setFn_pending (s : State) (fid : Nat) (f : FnSt) : (s.setFn fid f).pending = s.pending := rfl
@[simp] theorem State.setFn_out (s : State) (fid : Nat) (f : FnSt) : (s.setFn fid f).out = s.out := rfl
@[simp] theorem State.setFn_free (s : State) (fid : Nat) (f : FnSt) : (s.setFn fid f).free = s.free := rfl
@[simp] theorem State.setFn_regs (s : State) (fid : Nat) (f : FnSt) : (s.setFn fid f).regs = s.regs := rfl
@[simp] theorem State.setFn_fresh (s : State) (fid : Nat) (f : FnSt) : (s.setFn fid f).fresh = s.fresh := rfl
@[simp] theorem State.setFn_freshAt (s : State) (fid : Nat) (f : FnSt) : (s.setFn fid f).freshAt = s.freshAt := rfl
@[simp] theorem State.setFn_time (s : State) (fid : Nat) (f : FnSt) : (s.setFn fid f).time = s.time := rfl
@[simp] theorem State.setFn_agents (s : State) (fid : Nat) (f : FnSt) : (s.setFn fid f).agents = s.agents := rfl
@[simp] theorem State.setFn_ports (s : State) (fid : Nat) (f : FnSt) : (s.setFn fid f).ports = s.ports := rfl
@[simp] theorem State.setFn_sem (s : State) (fid : Nat) (f : FnSt) : (s.setFn fid f).sem = s.sem := rfl
@[simp] theorem State.setFn_mbx (s : State) (fid : Nat) (f : FnSt) : (s.setFn fid f).mbx = s.mbx := rfl
@[simp] theorem State.setFn_ic (s : State) (fid : Nat) (f : FnSt) : (s.setFn fid f).ic = s.ic := rfl
@[simp] theorem State.setFn_tmr (s : State) (fid : Nat) (f : FnSt) : (s.setFn fid f).tmr = s.tmr := rfl
@[simp] theorem State.setFn_fc (s : State) (fid : Nat) (f : FnSt) : (s.setFn fid f).fc = s.fc := rfl
@[simp] theorem State.setFn_qs (s : State) (fid : Nat) (f : FnSt) : (s.setFn fid f).qs = s.qs := rfl
@[simp] theorem State.setFn_sess (s : State) (fid : Nat) (f : FnSt) : (s.setFn fid f).sess = s.sess := rfl
@[simp] theorem State.setFn_span (s : State) (fid : Nat) (f : FnSt) : (s.setFn fid f).span = s.span := rfl
@[simp] theorem State.setFn_flows (s : State) (fid : Nat) (f : FnSt) : (s.setFn fid f).flows = s.flows := rfl
@[simp] theorem State.setFn_tgTime (s : State) (fid : Nat) (f : FnSt) : (s.setFn fid f).tgTime = s.tgTime := rfl
@[simp] theorem State.setFn_tgFree (s : State) (fid : Nat) (f : FnSt) : (s.setFn fid f).tgFree = s.tgFree := rfl
@[simp] theorem State.setFn_tgRefill (s : State) (fid : Nat) (f : FnSt) : (s.setFn fid f).tgRefill = s.tgRefill := rfl
@[simp] theorem State.setFn_bpm (s : State) (fid : Nat) (f : FnSt) : (s.setFn fid f).bpm = s.bpm := rfl
@[simp] theorem State.setFn_dma (s : State) (fid : Nat) (f : FnSt) : (s.setFn fid f).dma = s.dma := rfl
@[simp] theorem State.setFn_mem (s : State) (fid : Nat) (f : FnSt) : (s.setFn fid f).mem = s.mem := rfl
@[simp] theorem State.setFn_mc (s : State) (fid : Nat) (f : FnSt) : (s.setFn fid f).mc = s.mc := rfl
@[simp] theorem State.setFn_conc (s : State) (fid : Nat) (f : FnSt) : (s.setFn fid f).conc = s.conc := rfl
@[simp] theorem State.setFn_sec (s : State) (fid : Nat) (f : FnSt) : (s.setFn fid f).sec = s.sec := rfl
@[simp] theorem State.setFn_clk (s : State) (fid : Nat) (f : FnSt) : (s.setFn fid f).clk = s.clk := rfl
@[simp] theorem State.setFn_board (s : State) (fid : Nat) (f : FnSt) : (s.setFn fid f).board = s.board := rfl
@[simp] theorem State.setFn_reg (s : State) (fid : Nat) (f : FnSt) (o : Nat) : (s.setFn fid f).reg o = s.reg o := rfl
@[simp] theorem State.setFn_regF (s : State) (fid : Nat) (f : FnSt) (o l n : Nat) : (s.setFn fid f).regF o l n = s.regF o l n := rfl
@[simp] theorem State.setFn_regB (s : State) (fid : Nat) (f : FnSt) (o j : Nat) : (s.setFn fid f).regB o j = s.regB o j := rfl
@[simp] theorem State.setFn_agent (s : State) (fid : Nat) (f : FnSt) (n : Nat) : (s.setFn fid f).agent n = s.agent n := rfl
@[simp] theorem State.setFn_port (s : State) (fid : Nat) (f : FnSt) (n : Nat) : (s.setFn fid f).port n = s.port n := rfl
@[simp] theorem State.setFn_holder (s : State) (fid : Nat) (f : FnSt) (n : Nat) : (s.setFn fid f).holder n = s.holder n := rfl
@[simp] theorem State.setFn_ist (s : State) (fid : Nat) (f : FnSt) (n : Nat) : (s.setFn fid f).ist n = s.ist n := rfl
@[simp] theorem State.setFn_box (s : State) (fid : Nat) (f : FnSt) (n : Nat) : (s.setFn fid f).box n = s.box n := rfl
@[simp] theorem State.setFn_buf (s : State) (fid : Nat) (f : FnSt) (n : Nat) : (s.setFn fid f).buf n = s.buf n := rfl
@[simp] theorem State.setFn_flow (s : State) (fid : Nat) (f : FnSt) (n : Nat) : (s.setFn fid f).flow n = s.flow n := rfl
@[simp] theorem State.setFn_ctx (s : State) (fid : Nat) (f : FnSt) (n : Ctx) : (s.setFn fid f).ctx n = s.ctx n := rfl
@[simp] theorem State.setFn_session (s : State) (fid : Nat) (f : FnSt) (n : Nat) : (s.setFn fid f).session n = s.session n := rfl
@[simp] theorem State.setFn_queue (s : State) (fid : Nat) (f : FnSt) (n : Nat) : (s.setFn fid f).queue n = s.queue n := rfl
@[simp] theorem State.setFn_chan (s : State) (fid : Nat) (f : FnSt) (n : Nat) : (s.setFn fid f).chan n = s.chan n := rfl
@[simp] theorem State.setFn_now (s : State) (fid : Nat) (f : FnSt)  : (s.setFn fid f).now  = s.now  := rfl
@[simp] theorem State.setFn_cyc (s : State) (fid : Nat) (f : FnSt)  : (s.setFn fid f).cyc  = s.cyc  := rfl
@[simp] theorem State.setPort_pending (s : State) (n : Nat) (p : PortSt) : (s.setPort n p).pending = s.pending := rfl
@[simp] theorem State.setPort_out (s : State) (n : Nat) (p : PortSt) : (s.setPort n p).out = s.out := rfl
@[simp] theorem State.setPort_free (s : State) (n : Nat) (p : PortSt) : (s.setPort n p).free = s.free := rfl
@[simp] theorem State.setPort_regs (s : State) (n : Nat) (p : PortSt) : (s.setPort n p).regs = s.regs := rfl
@[simp] theorem State.setPort_fresh (s : State) (n : Nat) (p : PortSt) : (s.setPort n p).fresh = s.fresh := rfl
@[simp] theorem State.setPort_freshAt (s : State) (n : Nat) (p : PortSt) : (s.setPort n p).freshAt = s.freshAt := rfl
@[simp] theorem State.setPort_time (s : State) (n : Nat) (p : PortSt) : (s.setPort n p).time = s.time := rfl
@[simp] theorem State.setPort_agents (s : State) (n : Nat) (p : PortSt) : (s.setPort n p).agents = s.agents := rfl
@[simp] theorem State.setPort_fns (s : State) (n : Nat) (p : PortSt) : (s.setPort n p).fns = s.fns := rfl
@[simp] theorem State.setPort_sem (s : State) (n : Nat) (p : PortSt) : (s.setPort n p).sem = s.sem := rfl
@[simp] theorem State.setPort_mbx (s : State) (n : Nat) (p : PortSt) : (s.setPort n p).mbx = s.mbx := rfl
@[simp] theorem State.setPort_ic (s : State) (n : Nat) (p : PortSt) : (s.setPort n p).ic = s.ic := rfl
@[simp] theorem State.setPort_tmr (s : State) (n : Nat) (p : PortSt) : (s.setPort n p).tmr = s.tmr := rfl
@[simp] theorem State.setPort_fc (s : State) (n : Nat) (p : PortSt) : (s.setPort n p).fc = s.fc := rfl
@[simp] theorem State.setPort_qs (s : State) (n : Nat) (p : PortSt) : (s.setPort n p).qs = s.qs := rfl
@[simp] theorem State.setPort_sess (s : State) (n : Nat) (p : PortSt) : (s.setPort n p).sess = s.sess := rfl
@[simp] theorem State.setPort_span (s : State) (n : Nat) (p : PortSt) : (s.setPort n p).span = s.span := rfl
@[simp] theorem State.setPort_flows (s : State) (n : Nat) (p : PortSt) : (s.setPort n p).flows = s.flows := rfl
@[simp] theorem State.setPort_tgTime (s : State) (n : Nat) (p : PortSt) : (s.setPort n p).tgTime = s.tgTime := rfl
@[simp] theorem State.setPort_tgFree (s : State) (n : Nat) (p : PortSt) : (s.setPort n p).tgFree = s.tgFree := rfl
@[simp] theorem State.setPort_tgRefill (s : State) (n : Nat) (p : PortSt) : (s.setPort n p).tgRefill = s.tgRefill := rfl
@[simp] theorem State.setPort_bpm (s : State) (n : Nat) (p : PortSt) : (s.setPort n p).bpm = s.bpm := rfl
@[simp] theorem State.setPort_dma (s : State) (n : Nat) (p : PortSt) : (s.setPort n p).dma = s.dma := rfl
@[simp] theorem State.setPort_mem (s : State) (n : Nat) (p : PortSt) : (s.setPort n p).mem = s.mem := rfl
@[simp] theorem State.setPort_mc (s : State) (n : Nat) (p : PortSt) : (s.setPort n p).mc = s.mc := rfl
@[simp] theorem State.setPort_conc (s : State) (n : Nat) (p : PortSt) : (s.setPort n p).conc = s.conc := rfl
@[simp] theorem State.setPort_sec (s : State) (n : Nat) (p : PortSt) : (s.setPort n p).sec = s.sec := rfl
@[simp] theorem State.setPort_clk (s : State) (n : Nat) (p : PortSt) : (s.setPort n p).clk = s.clk := rfl
@[simp] theorem State.setPort_board (s : State) (n : Nat) (p : PortSt) : (s.setPort n p).board = s.board := rfl
@[simp] theorem State.setPort_reg (s : State) (n : Nat) (p : PortSt) (o : Nat) : (s.setPort n p).reg o = s.reg o := rfl
@[simp] theorem State.setPort_regF (s : State) (n : Nat) (p : PortSt) (o l n' : Nat) : (s.setPort n p).regF o l n' = s.regF o l n' := rfl
@[simp] theorem State.setPort_regB (s : State) (n : Nat) (p : PortSt) (o j : Nat) : (s.setPort n p).regB o j = s.regB o j := rfl
@[simp] theorem State.setPort_agent (s : State) (n : Nat) (p : PortSt) (n' : Nat) : (s.setPort n p).agent n' = s.agent n' := rfl
@[simp] theorem State.setPort_fn (s : State) (n : Nat) (p : PortSt) (n' : Nat) : (s.setPort n p).fn n' = s.fn n' := rfl
@[simp] theorem State.setPort_holder (s : State) (n : Nat) (p : PortSt) (n' : Nat) : (s.setPort n p).holder n' = s.holder n' := rfl
@[simp] theorem State.setPort_ist (s : State) (n : Nat) (p : PortSt) (n' : Nat) : (s.setPort n p).ist n' = s.ist n' := rfl
@[simp] theorem State.setPort_box (s : State) (n : Nat) (p : PortSt) (n' : Nat) : (s.setPort n p).box n' = s.box n' := rfl
@[simp] theorem State.setPort_buf (s : State) (n : Nat) (p : PortSt) (n' : Nat) : (s.setPort n p).buf n' = s.buf n' := rfl
@[simp] theorem State.setPort_flow (s : State) (n : Nat) (p : PortSt) (n' : Nat) : (s.setPort n p).flow n' = s.flow n' := rfl
@[simp] theorem State.setPort_ctx (s : State) (n : Nat) (p : PortSt) (n' : Ctx) : (s.setPort n p).ctx n' = s.ctx n' := rfl
@[simp] theorem State.setPort_session (s : State) (n : Nat) (p : PortSt) (n' : Nat) : (s.setPort n p).session n' = s.session n' := rfl
@[simp] theorem State.setPort_queue (s : State) (n : Nat) (p : PortSt) (n' : Nat) : (s.setPort n p).queue n' = s.queue n' := rfl
@[simp] theorem State.setPort_chan (s : State) (n : Nat) (p : PortSt) (n' : Nat) : (s.setPort n p).chan n' = s.chan n' := rfl
@[simp] theorem State.setPort_now (s : State) (n : Nat) (p : PortSt)  : (s.setPort n p).now  = s.now  := rfl
@[simp] theorem State.setPort_cyc (s : State) (n : Nat) (p : PortSt)  : (s.setPort n p).cyc  = s.cyc  := rfl
@[simp] theorem State.setHolder_pending (s : State) (n code : Nat) : (s.setHolder n code).pending = s.pending := rfl
@[simp] theorem State.setHolder_out (s : State) (n code : Nat) : (s.setHolder n code).out = s.out := rfl
@[simp] theorem State.setHolder_free (s : State) (n code : Nat) : (s.setHolder n code).free = s.free := rfl
@[simp] theorem State.setHolder_regs (s : State) (n code : Nat) : (s.setHolder n code).regs = s.regs := rfl
@[simp] theorem State.setHolder_fresh (s : State) (n code : Nat) : (s.setHolder n code).fresh = s.fresh := rfl
@[simp] theorem State.setHolder_freshAt (s : State) (n code : Nat) : (s.setHolder n code).freshAt = s.freshAt := rfl
@[simp] theorem State.setHolder_time (s : State) (n code : Nat) : (s.setHolder n code).time = s.time := rfl
@[simp] theorem State.setHolder_agents (s : State) (n code : Nat) : (s.setHolder n code).agents = s.agents := rfl
@[simp] theorem State.setHolder_fns (s : State) (n code : Nat) : (s.setHolder n code).fns = s.fns := rfl
@[simp] theorem State.setHolder_ports (s : State) (n code : Nat) : (s.setHolder n code).ports = s.ports := rfl
@[simp] theorem State.setHolder_mbx (s : State) (n code : Nat) : (s.setHolder n code).mbx = s.mbx := rfl
@[simp] theorem State.setHolder_ic (s : State) (n code : Nat) : (s.setHolder n code).ic = s.ic := rfl
@[simp] theorem State.setHolder_tmr (s : State) (n code : Nat) : (s.setHolder n code).tmr = s.tmr := rfl
@[simp] theorem State.setHolder_fc (s : State) (n code : Nat) : (s.setHolder n code).fc = s.fc := rfl
@[simp] theorem State.setHolder_qs (s : State) (n code : Nat) : (s.setHolder n code).qs = s.qs := rfl
@[simp] theorem State.setHolder_sess (s : State) (n code : Nat) : (s.setHolder n code).sess = s.sess := rfl
@[simp] theorem State.setHolder_span (s : State) (n code : Nat) : (s.setHolder n code).span = s.span := rfl
@[simp] theorem State.setHolder_flows (s : State) (n code : Nat) : (s.setHolder n code).flows = s.flows := rfl
@[simp] theorem State.setHolder_tgTime (s : State) (n code : Nat) : (s.setHolder n code).tgTime = s.tgTime := rfl
@[simp] theorem State.setHolder_tgFree (s : State) (n code : Nat) : (s.setHolder n code).tgFree = s.tgFree := rfl
@[simp] theorem State.setHolder_tgRefill (s : State) (n code : Nat) : (s.setHolder n code).tgRefill = s.tgRefill := rfl
@[simp] theorem State.setHolder_bpm (s : State) (n code : Nat) : (s.setHolder n code).bpm = s.bpm := rfl
@[simp] theorem State.setHolder_dma (s : State) (n code : Nat) : (s.setHolder n code).dma = s.dma := rfl
@[simp] theorem State.setHolder_mem (s : State) (n code : Nat) : (s.setHolder n code).mem = s.mem := rfl
@[simp] theorem State.setHolder_mc (s : State) (n code : Nat) : (s.setHolder n code).mc = s.mc := rfl
@[simp] theorem State.setHolder_conc (s : State) (n code : Nat) : (s.setHolder n code).conc = s.conc := rfl
@[simp] theorem State.setHolder_sec (s : State) (n code : Nat) : (s.setHolder n code).sec = s.sec := rfl
@[simp] theorem State.setHolder_clk (s : State) (n code : Nat) : (s.setHolder n code).clk = s.clk := rfl
@[simp] theorem State.setHolder_board (s : State) (n code : Nat) : (s.setHolder n code).board = s.board := rfl
@[simp] theorem State.setHolder_reg (s : State) (n code : Nat) (o : Nat) : (s.setHolder n code).reg o = s.reg o := rfl
@[simp] theorem State.setHolder_regF (s : State) (n code : Nat) (o l n' : Nat) : (s.setHolder n code).regF o l n' = s.regF o l n' := rfl
@[simp] theorem State.setHolder_regB (s : State) (n code : Nat) (o j : Nat) : (s.setHolder n code).regB o j = s.regB o j := rfl
@[simp] theorem State.setHolder_agent (s : State) (n code : Nat) (n' : Nat) : (s.setHolder n code).agent n' = s.agent n' := rfl
@[simp] theorem State.setHolder_fn (s : State) (n code : Nat) (n' : Nat) : (s.setHolder n code).fn n' = s.fn n' := rfl
@[simp] theorem State.setHolder_port (s : State) (n code : Nat) (n' : Nat) : (s.setHolder n code).port n' = s.port n' := rfl
@[simp] theorem State.setHolder_ist (s : State) (n code : Nat) (n' : Nat) : (s.setHolder n code).ist n' = s.ist n' := rfl
@[simp] theorem State.setHolder_box (s : State) (n code : Nat) (n' : Nat) : (s.setHolder n code).box n' = s.box n' := rfl
@[simp] theorem State.setHolder_buf (s : State) (n code : Nat) (n' : Nat) : (s.setHolder n code).buf n' = s.buf n' := rfl
@[simp] theorem State.setHolder_flow (s : State) (n code : Nat) (n' : Nat) : (s.setHolder n code).flow n' = s.flow n' := rfl
@[simp] theorem State.setHolder_ctx (s : State) (n code : Nat) (n' : Ctx) : (s.setHolder n code).ctx n' = s.ctx n' := rfl
@[simp] theorem State.setHolder_session (s : State) (n code : Nat) (n' : Nat) : (s.setHolder n code).session n' = s.session n' := rfl
@[simp] theorem State.setHolder_queue (s : State) (n code : Nat) (n' : Nat) : (s.setHolder n code).queue n' = s.queue n' := rfl
@[simp] theorem State.setHolder_chan (s : State) (n code : Nat) (n' : Nat) : (s.setHolder n code).chan n' = s.chan n' := rfl
@[simp] theorem State.setHolder_now (s : State) (n code : Nat)  : (s.setHolder n code).now  = s.now  := rfl
@[simp] theorem State.setHolder_cyc (s : State) (n code : Nat)  : (s.setHolder n code).cyc  = s.cyc  := rfl
@[simp] theorem State.setIst_pending (s : State) (n : Nat) (e : IstEntry) : (s.setIst n e).pending = s.pending := rfl
@[simp] theorem State.setIst_out (s : State) (n : Nat) (e : IstEntry) : (s.setIst n e).out = s.out := rfl
@[simp] theorem State.setIst_free (s : State) (n : Nat) (e : IstEntry) : (s.setIst n e).free = s.free := rfl
@[simp] theorem State.setIst_regs (s : State) (n : Nat) (e : IstEntry) : (s.setIst n e).regs = s.regs := rfl
@[simp] theorem State.setIst_fresh (s : State) (n : Nat) (e : IstEntry) : (s.setIst n e).fresh = s.fresh := rfl
@[simp] theorem State.setIst_freshAt (s : State) (n : Nat) (e : IstEntry) : (s.setIst n e).freshAt = s.freshAt := rfl
@[simp] theorem State.setIst_time (s : State) (n : Nat) (e : IstEntry) : (s.setIst n e).time = s.time := rfl
@[simp] theorem State.setIst_agents (s : State) (n : Nat) (e : IstEntry) : (s.setIst n e).agents = s.agents := rfl
@[simp] theorem State.setIst_fns (s : State) (n : Nat) (e : IstEntry) : (s.setIst n e).fns = s.fns := rfl
@[simp] theorem State.setIst_ports (s : State) (n : Nat) (e : IstEntry) : (s.setIst n e).ports = s.ports := rfl
@[simp] theorem State.setIst_sem (s : State) (n : Nat) (e : IstEntry) : (s.setIst n e).sem = s.sem := rfl
@[simp] theorem State.setIst_mbx (s : State) (n : Nat) (e : IstEntry) : (s.setIst n e).mbx = s.mbx := rfl
@[simp] theorem State.setIst_tmr (s : State) (n : Nat) (e : IstEntry) : (s.setIst n e).tmr = s.tmr := rfl
@[simp] theorem State.setIst_fc (s : State) (n : Nat) (e : IstEntry) : (s.setIst n e).fc = s.fc := rfl
@[simp] theorem State.setIst_qs (s : State) (n : Nat) (e : IstEntry) : (s.setIst n e).qs = s.qs := rfl
@[simp] theorem State.setIst_sess (s : State) (n : Nat) (e : IstEntry) : (s.setIst n e).sess = s.sess := rfl
@[simp] theorem State.setIst_span (s : State) (n : Nat) (e : IstEntry) : (s.setIst n e).span = s.span := rfl
@[simp] theorem State.setIst_flows (s : State) (n : Nat) (e : IstEntry) : (s.setIst n e).flows = s.flows := rfl
@[simp] theorem State.setIst_tgTime (s : State) (n : Nat) (e : IstEntry) : (s.setIst n e).tgTime = s.tgTime := rfl
@[simp] theorem State.setIst_tgFree (s : State) (n : Nat) (e : IstEntry) : (s.setIst n e).tgFree = s.tgFree := rfl
@[simp] theorem State.setIst_tgRefill (s : State) (n : Nat) (e : IstEntry) : (s.setIst n e).tgRefill = s.tgRefill := rfl
@[simp] theorem State.setIst_bpm (s : State) (n : Nat) (e : IstEntry) : (s.setIst n e).bpm = s.bpm := rfl
@[simp] theorem State.setIst_dma (s : State) (n : Nat) (e : IstEntry) : (s.setIst n e).dma = s.dma := rfl
@[simp] theorem State.setIst_mem (s : State) (n : Nat) (e : IstEntry) : (s.setIst n e).mem = s.mem := rfl
@[simp] theorem State.setIst_mc (s : State) (n : Nat) (e : IstEntry) : (s.setIst n e).mc = s.mc := rfl
@[simp] theorem State.setIst_conc (s : State) (n : Nat) (e : IstEntry) : (s.setIst n e).conc = s.conc := rfl
@[simp] theorem State.setIst_sec (s : State) (n : Nat) (e : IstEntry) : (s.setIst n e).sec = s.sec := rfl
@[simp] theorem State.setIst_clk (s : State) (n : Nat) (e : IstEntry) : (s.setIst n e).clk = s.clk := rfl
@[simp] theorem State.setIst_board (s : State) (n : Nat) (e : IstEntry) : (s.setIst n e).board = s.board := rfl
@[simp] theorem State.setIst_reg (s : State) (n : Nat) (e : IstEntry) (o : Nat) : (s.setIst n e).reg o = s.reg o := rfl
@[simp] theorem State.setIst_regF (s : State) (n : Nat) (e : IstEntry) (o l n' : Nat) : (s.setIst n e).regF o l n' = s.regF o l n' := rfl
@[simp] theorem State.setIst_regB (s : State) (n : Nat) (e : IstEntry) (o j : Nat) : (s.setIst n e).regB o j = s.regB o j := rfl
@[simp] theorem State.setIst_agent (s : State) (n : Nat) (e : IstEntry) (n' : Nat) : (s.setIst n e).agent n' = s.agent n' := rfl
@[simp] theorem State.setIst_fn (s : State) (n : Nat) (e : IstEntry) (n' : Nat) : (s.setIst n e).fn n' = s.fn n' := rfl
@[simp] theorem State.setIst_port (s : State) (n : Nat) (e : IstEntry) (n' : Nat) : (s.setIst n e).port n' = s.port n' := rfl
@[simp] theorem State.setIst_holder (s : State) (n : Nat) (e : IstEntry) (n' : Nat) : (s.setIst n e).holder n' = s.holder n' := rfl
@[simp] theorem State.setIst_box (s : State) (n : Nat) (e : IstEntry) (n' : Nat) : (s.setIst n e).box n' = s.box n' := rfl
@[simp] theorem State.setIst_buf (s : State) (n : Nat) (e : IstEntry) (n' : Nat) : (s.setIst n e).buf n' = s.buf n' := rfl
@[simp] theorem State.setIst_flow (s : State) (n : Nat) (e : IstEntry) (n' : Nat) : (s.setIst n e).flow n' = s.flow n' := rfl
@[simp] theorem State.setIst_ctx (s : State) (n : Nat) (e : IstEntry) (n' : Ctx) : (s.setIst n e).ctx n' = s.ctx n' := rfl
@[simp] theorem State.setIst_session (s : State) (n : Nat) (e : IstEntry) (n' : Nat) : (s.setIst n e).session n' = s.session n' := rfl
@[simp] theorem State.setIst_queue (s : State) (n : Nat) (e : IstEntry) (n' : Nat) : (s.setIst n e).queue n' = s.queue n' := rfl
@[simp] theorem State.setIst_chan (s : State) (n : Nat) (e : IstEntry) (n' : Nat) : (s.setIst n e).chan n' = s.chan n' := rfl
@[simp] theorem State.setIst_now (s : State) (n : Nat) (e : IstEntry)  : (s.setIst n e).now  = s.now  := rfl
@[simp] theorem State.setIst_cyc (s : State) (n : Nat) (e : IstEntry)  : (s.setIst n e).cyc  = s.cyc  := rfl
@[simp] theorem State.setBox_pending (s : State) (n : Nat) (b : Mbx) : (s.setBox n b).pending = s.pending := rfl
@[simp] theorem State.setBox_out (s : State) (n : Nat) (b : Mbx) : (s.setBox n b).out = s.out := rfl
@[simp] theorem State.setBox_free (s : State) (n : Nat) (b : Mbx) : (s.setBox n b).free = s.free := rfl
@[simp] theorem State.setBox_regs (s : State) (n : Nat) (b : Mbx) : (s.setBox n b).regs = s.regs := rfl
@[simp] theorem State.setBox_fresh (s : State) (n : Nat) (b : Mbx) : (s.setBox n b).fresh = s.fresh := rfl
@[simp] theorem State.setBox_freshAt (s : State) (n : Nat) (b : Mbx) : (s.setBox n b).freshAt = s.freshAt := rfl
@[simp] theorem State.setBox_time (s : State) (n : Nat) (b : Mbx) : (s.setBox n b).time = s.time := rfl
@[simp] theorem State.setBox_agents (s : State) (n : Nat) (b : Mbx) : (s.setBox n b).agents = s.agents := rfl
@[simp] theorem State.setBox_fns (s : State) (n : Nat) (b : Mbx) : (s.setBox n b).fns = s.fns := rfl
@[simp] theorem State.setBox_ports (s : State) (n : Nat) (b : Mbx) : (s.setBox n b).ports = s.ports := rfl
@[simp] theorem State.setBox_sem (s : State) (n : Nat) (b : Mbx) : (s.setBox n b).sem = s.sem := rfl
@[simp] theorem State.setBox_ic (s : State) (n : Nat) (b : Mbx) : (s.setBox n b).ic = s.ic := rfl
@[simp] theorem State.setBox_tmr (s : State) (n : Nat) (b : Mbx) : (s.setBox n b).tmr = s.tmr := rfl
@[simp] theorem State.setBox_fc (s : State) (n : Nat) (b : Mbx) : (s.setBox n b).fc = s.fc := rfl
@[simp] theorem State.setBox_qs (s : State) (n : Nat) (b : Mbx) : (s.setBox n b).qs = s.qs := rfl
@[simp] theorem State.setBox_sess (s : State) (n : Nat) (b : Mbx) : (s.setBox n b).sess = s.sess := rfl
@[simp] theorem State.setBox_span (s : State) (n : Nat) (b : Mbx) : (s.setBox n b).span = s.span := rfl
@[simp] theorem State.setBox_flows (s : State) (n : Nat) (b : Mbx) : (s.setBox n b).flows = s.flows := rfl
@[simp] theorem State.setBox_tgTime (s : State) (n : Nat) (b : Mbx) : (s.setBox n b).tgTime = s.tgTime := rfl
@[simp] theorem State.setBox_tgFree (s : State) (n : Nat) (b : Mbx) : (s.setBox n b).tgFree = s.tgFree := rfl
@[simp] theorem State.setBox_tgRefill (s : State) (n : Nat) (b : Mbx) : (s.setBox n b).tgRefill = s.tgRefill := rfl
@[simp] theorem State.setBox_bpm (s : State) (n : Nat) (b : Mbx) : (s.setBox n b).bpm = s.bpm := rfl
@[simp] theorem State.setBox_dma (s : State) (n : Nat) (b : Mbx) : (s.setBox n b).dma = s.dma := rfl
@[simp] theorem State.setBox_mem (s : State) (n : Nat) (b : Mbx) : (s.setBox n b).mem = s.mem := rfl
@[simp] theorem State.setBox_mc (s : State) (n : Nat) (b : Mbx) : (s.setBox n b).mc = s.mc := rfl
@[simp] theorem State.setBox_conc (s : State) (n : Nat) (b : Mbx) : (s.setBox n b).conc = s.conc := rfl
@[simp] theorem State.setBox_sec (s : State) (n : Nat) (b : Mbx) : (s.setBox n b).sec = s.sec := rfl
@[simp] theorem State.setBox_clk (s : State) (n : Nat) (b : Mbx) : (s.setBox n b).clk = s.clk := rfl
@[simp] theorem State.setBox_board (s : State) (n : Nat) (b : Mbx) : (s.setBox n b).board = s.board := rfl
@[simp] theorem State.setBox_reg (s : State) (n : Nat) (b : Mbx) (o : Nat) : (s.setBox n b).reg o = s.reg o := rfl
@[simp] theorem State.setBox_regF (s : State) (n : Nat) (b : Mbx) (o l n' : Nat) : (s.setBox n b).regF o l n' = s.regF o l n' := rfl
@[simp] theorem State.setBox_regB (s : State) (n : Nat) (b : Mbx) (o j : Nat) : (s.setBox n b).regB o j = s.regB o j := rfl
@[simp] theorem State.setBox_agent (s : State) (n : Nat) (b : Mbx) (n' : Nat) : (s.setBox n b).agent n' = s.agent n' := rfl
@[simp] theorem State.setBox_fn (s : State) (n : Nat) (b : Mbx) (n' : Nat) : (s.setBox n b).fn n' = s.fn n' := rfl
@[simp] theorem State.setBox_port (s : State) (n : Nat) (b : Mbx) (n' : Nat) : (s.setBox n b).port n' = s.port n' := rfl
@[simp] theorem State.setBox_holder (s : State) (n : Nat) (b : Mbx) (n' : Nat) : (s.setBox n b).holder n' = s.holder n' := rfl
@[simp] theorem State.setBox_ist (s : State) (n : Nat) (b : Mbx) (n' : Nat) : (s.setBox n b).ist n' = s.ist n' := rfl
@[simp] theorem State.setBox_buf (s : State) (n : Nat) (b : Mbx) (n' : Nat) : (s.setBox n b).buf n' = s.buf n' := rfl
@[simp] theorem State.setBox_flow (s : State) (n : Nat) (b : Mbx) (n' : Nat) : (s.setBox n b).flow n' = s.flow n' := rfl
@[simp] theorem State.setBox_ctx (s : State) (n : Nat) (b : Mbx) (n' : Ctx) : (s.setBox n b).ctx n' = s.ctx n' := rfl
@[simp] theorem State.setBox_session (s : State) (n : Nat) (b : Mbx) (n' : Nat) : (s.setBox n b).session n' = s.session n' := rfl
@[simp] theorem State.setBox_queue (s : State) (n : Nat) (b : Mbx) (n' : Nat) : (s.setBox n b).queue n' = s.queue n' := rfl
@[simp] theorem State.setBox_chan (s : State) (n : Nat) (b : Mbx) (n' : Nat) : (s.setBox n b).chan n' = s.chan n' := rfl
@[simp] theorem State.setBox_now (s : State) (n : Nat) (b : Mbx)  : (s.setBox n b).now  = s.now  := rfl
@[simp] theorem State.setBox_cyc (s : State) (n : Nat) (b : Mbx)  : (s.setBox n b).cyc  = s.cyc  := rfl
@[simp] theorem State.setBuf_pending (s : State) (k : Nat) (b : Buf) : (s.setBuf k b).pending = s.pending := rfl
@[simp] theorem State.setBuf_out (s : State) (k : Nat) (b : Buf) : (s.setBuf k b).out = s.out := rfl
@[simp] theorem State.setBuf_free (s : State) (k : Nat) (b : Buf) : (s.setBuf k b).free = s.free := rfl
@[simp] theorem State.setBuf_regs (s : State) (k : Nat) (b : Buf) : (s.setBuf k b).regs = s.regs := rfl
@[simp] theorem State.setBuf_fresh (s : State) (k : Nat) (b : Buf) : (s.setBuf k b).fresh = s.fresh := rfl
@[simp] theorem State.setBuf_freshAt (s : State) (k : Nat) (b : Buf) : (s.setBuf k b).freshAt = s.freshAt := rfl
@[simp] theorem State.setBuf_time (s : State) (k : Nat) (b : Buf) : (s.setBuf k b).time = s.time := rfl
@[simp] theorem State.setBuf_agents (s : State) (k : Nat) (b : Buf) : (s.setBuf k b).agents = s.agents := rfl
@[simp] theorem State.setBuf_fns (s : State) (k : Nat) (b : Buf) : (s.setBuf k b).fns = s.fns := rfl
@[simp] theorem State.setBuf_ports (s : State) (k : Nat) (b : Buf) : (s.setBuf k b).ports = s.ports := rfl
@[simp] theorem State.setBuf_sem (s : State) (k : Nat) (b : Buf) : (s.setBuf k b).sem = s.sem := rfl
@[simp] theorem State.setBuf_mbx (s : State) (k : Nat) (b : Buf) : (s.setBuf k b).mbx = s.mbx := rfl
@[simp] theorem State.setBuf_ic (s : State) (k : Nat) (b : Buf) : (s.setBuf k b).ic = s.ic := rfl
@[simp] theorem State.setBuf_tmr (s : State) (k : Nat) (b : Buf) : (s.setBuf k b).tmr = s.tmr := rfl
@[simp] theorem State.setBuf_fc (s : State) (k : Nat) (b : Buf) : (s.setBuf k b).fc = s.fc := rfl
@[simp] theorem State.setBuf_qs (s : State) (k : Nat) (b : Buf) : (s.setBuf k b).qs = s.qs := rfl
@[simp] theorem State.setBuf_sess (s : State) (k : Nat) (b : Buf) : (s.setBuf k b).sess = s.sess := rfl
@[simp] theorem State.setBuf_span (s : State) (k : Nat) (b : Buf) : (s.setBuf k b).span = s.span := rfl
@[simp] theorem State.setBuf_flows (s : State) (k : Nat) (b : Buf) : (s.setBuf k b).flows = s.flows := rfl
@[simp] theorem State.setBuf_tgTime (s : State) (k : Nat) (b : Buf) : (s.setBuf k b).tgTime = s.tgTime := rfl
@[simp] theorem State.setBuf_tgFree (s : State) (k : Nat) (b : Buf) : (s.setBuf k b).tgFree = s.tgFree := rfl
@[simp] theorem State.setBuf_tgRefill (s : State) (k : Nat) (b : Buf) : (s.setBuf k b).tgRefill = s.tgRefill := rfl
@[simp] theorem State.setBuf_dma (s : State) (k : Nat) (b : Buf) : (s.setBuf k b).dma = s.dma := rfl
@[simp] theorem State.setBuf_mem (s : State) (k : Nat) (b : Buf) : (s.setBuf k b).mem = s.mem := rfl
@[simp] theorem State.setBuf_mc (s : State) (k : Nat) (b : Buf) : (s.setBuf k b).mc = s.mc := rfl
@[simp] theorem State.setBuf_conc (s : State) (k : Nat) (b : Buf) : (s.setBuf k b).conc = s.conc := rfl
@[simp] theorem State.setBuf_sec (s : State) (k : Nat) (b : Buf) : (s.setBuf k b).sec = s.sec := rfl
@[simp] theorem State.setBuf_clk (s : State) (k : Nat) (b : Buf) : (s.setBuf k b).clk = s.clk := rfl
@[simp] theorem State.setBuf_board (s : State) (k : Nat) (b : Buf) : (s.setBuf k b).board = s.board := rfl
@[simp] theorem State.setBuf_reg (s : State) (k : Nat) (b : Buf) (o : Nat) : (s.setBuf k b).reg o = s.reg o := rfl
@[simp] theorem State.setBuf_regF (s : State) (k : Nat) (b : Buf) (o l n : Nat) : (s.setBuf k b).regF o l n = s.regF o l n := rfl
@[simp] theorem State.setBuf_regB (s : State) (k : Nat) (b : Buf) (o j : Nat) : (s.setBuf k b).regB o j = s.regB o j := rfl
@[simp] theorem State.setBuf_agent (s : State) (k : Nat) (b : Buf) (n : Nat) : (s.setBuf k b).agent n = s.agent n := rfl
@[simp] theorem State.setBuf_fn (s : State) (k : Nat) (b : Buf) (n : Nat) : (s.setBuf k b).fn n = s.fn n := rfl
@[simp] theorem State.setBuf_port (s : State) (k : Nat) (b : Buf) (n : Nat) : (s.setBuf k b).port n = s.port n := rfl
@[simp] theorem State.setBuf_holder (s : State) (k : Nat) (b : Buf) (n : Nat) : (s.setBuf k b).holder n = s.holder n := rfl
@[simp] theorem State.setBuf_ist (s : State) (k : Nat) (b : Buf) (n : Nat) : (s.setBuf k b).ist n = s.ist n := rfl
@[simp] theorem State.setBuf_box (s : State) (k : Nat) (b : Buf) (n : Nat) : (s.setBuf k b).box n = s.box n := rfl
@[simp] theorem State.setBuf_flow (s : State) (k : Nat) (b : Buf) (n : Nat) : (s.setBuf k b).flow n = s.flow n := rfl
@[simp] theorem State.setBuf_ctx (s : State) (k : Nat) (b : Buf) (n : Ctx) : (s.setBuf k b).ctx n = s.ctx n := rfl
@[simp] theorem State.setBuf_session (s : State) (k : Nat) (b : Buf) (n : Nat) : (s.setBuf k b).session n = s.session n := rfl
@[simp] theorem State.setBuf_queue (s : State) (k : Nat) (b : Buf) (n : Nat) : (s.setBuf k b).queue n = s.queue n := rfl
@[simp] theorem State.setBuf_chan (s : State) (k : Nat) (b : Buf) (n : Nat) : (s.setBuf k b).chan n = s.chan n := rfl
@[simp] theorem State.setBuf_now (s : State) (k : Nat) (b : Buf)  : (s.setBuf k b).now  = s.now  := rfl
@[simp] theorem State.setBuf_cyc (s : State) (k : Nat) (b : Buf)  : (s.setBuf k b).cyc  = s.cyc  := rfl
@[simp] theorem State.setPool_pending (s : State) (p : Nat) (q : Pool) : (s.setPool p q).pending = s.pending := rfl
@[simp] theorem State.setPool_out (s : State) (p : Nat) (q : Pool) : (s.setPool p q).out = s.out := rfl
@[simp] theorem State.setPool_free (s : State) (p : Nat) (q : Pool) : (s.setPool p q).free = s.free := rfl
@[simp] theorem State.setPool_regs (s : State) (p : Nat) (q : Pool) : (s.setPool p q).regs = s.regs := rfl
@[simp] theorem State.setPool_fresh (s : State) (p : Nat) (q : Pool) : (s.setPool p q).fresh = s.fresh := rfl
@[simp] theorem State.setPool_freshAt (s : State) (p : Nat) (q : Pool) : (s.setPool p q).freshAt = s.freshAt := rfl
@[simp] theorem State.setPool_time (s : State) (p : Nat) (q : Pool) : (s.setPool p q).time = s.time := rfl
@[simp] theorem State.setPool_agents (s : State) (p : Nat) (q : Pool) : (s.setPool p q).agents = s.agents := rfl
@[simp] theorem State.setPool_fns (s : State) (p : Nat) (q : Pool) : (s.setPool p q).fns = s.fns := rfl
@[simp] theorem State.setPool_ports (s : State) (p : Nat) (q : Pool) : (s.setPool p q).ports = s.ports := rfl
@[simp] theorem State.setPool_sem (s : State) (p : Nat) (q : Pool) : (s.setPool p q).sem = s.sem := rfl
@[simp] theorem State.setPool_mbx (s : State) (p : Nat) (q : Pool) : (s.setPool p q).mbx = s.mbx := rfl
@[simp] theorem State.setPool_ic (s : State) (p : Nat) (q : Pool) : (s.setPool p q).ic = s.ic := rfl
@[simp] theorem State.setPool_tmr (s : State) (p : Nat) (q : Pool) : (s.setPool p q).tmr = s.tmr := rfl
@[simp] theorem State.setPool_fc (s : State) (p : Nat) (q : Pool) : (s.setPool p q).fc = s.fc := rfl
@[simp] theorem State.setPool_qs (s : State) (p : Nat) (q : Pool) : (s.setPool p q).qs = s.qs := rfl
@[simp] theorem State.setPool_sess (s : State) (p : Nat) (q : Pool) : (s.setPool p q).sess = s.sess := rfl
@[simp] theorem State.setPool_span (s : State) (p : Nat) (q : Pool) : (s.setPool p q).span = s.span := rfl
@[simp] theorem State.setPool_flows (s : State) (p : Nat) (q : Pool) : (s.setPool p q).flows = s.flows := rfl
@[simp] theorem State.setPool_tgTime (s : State) (p : Nat) (q : Pool) : (s.setPool p q).tgTime = s.tgTime := rfl
@[simp] theorem State.setPool_tgFree (s : State) (p : Nat) (q : Pool) : (s.setPool p q).tgFree = s.tgFree := rfl
@[simp] theorem State.setPool_tgRefill (s : State) (p : Nat) (q : Pool) : (s.setPool p q).tgRefill = s.tgRefill := rfl
@[simp] theorem State.setPool_dma (s : State) (p : Nat) (q : Pool) : (s.setPool p q).dma = s.dma := rfl
@[simp] theorem State.setPool_mem (s : State) (p : Nat) (q : Pool) : (s.setPool p q).mem = s.mem := rfl
@[simp] theorem State.setPool_mc (s : State) (p : Nat) (q : Pool) : (s.setPool p q).mc = s.mc := rfl
@[simp] theorem State.setPool_conc (s : State) (p : Nat) (q : Pool) : (s.setPool p q).conc = s.conc := rfl
@[simp] theorem State.setPool_sec (s : State) (p : Nat) (q : Pool) : (s.setPool p q).sec = s.sec := rfl
@[simp] theorem State.setPool_clk (s : State) (p : Nat) (q : Pool) : (s.setPool p q).clk = s.clk := rfl
@[simp] theorem State.setPool_board (s : State) (p : Nat) (q : Pool) : (s.setPool p q).board = s.board := rfl
@[simp] theorem State.setPool_reg (s : State) (p : Nat) (q : Pool) (o : Nat) : (s.setPool p q).reg o = s.reg o := rfl
@[simp] theorem State.setPool_regF (s : State) (p : Nat) (q : Pool) (o l n : Nat) : (s.setPool p q).regF o l n = s.regF o l n := rfl
@[simp] theorem State.setPool_regB (s : State) (p : Nat) (q : Pool) (o j : Nat) : (s.setPool p q).regB o j = s.regB o j := rfl
@[simp] theorem State.setPool_agent (s : State) (p : Nat) (q : Pool) (n : Nat) : (s.setPool p q).agent n = s.agent n := rfl
@[simp] theorem State.setPool_fn (s : State) (p : Nat) (q : Pool) (n : Nat) : (s.setPool p q).fn n = s.fn n := rfl
@[simp] theorem State.setPool_port (s : State) (p : Nat) (q : Pool) (n : Nat) : (s.setPool p q).port n = s.port n := rfl
@[simp] theorem State.setPool_holder (s : State) (p : Nat) (q : Pool) (n : Nat) : (s.setPool p q).holder n = s.holder n := rfl
@[simp] theorem State.setPool_ist (s : State) (p : Nat) (q : Pool) (n : Nat) : (s.setPool p q).ist n = s.ist n := rfl
@[simp] theorem State.setPool_box (s : State) (p : Nat) (q : Pool) (n : Nat) : (s.setPool p q).box n = s.box n := rfl
@[simp] theorem State.setPool_flow (s : State) (p : Nat) (q : Pool) (n : Nat) : (s.setPool p q).flow n = s.flow n := rfl
@[simp] theorem State.setPool_ctx (s : State) (p : Nat) (q : Pool) (n : Ctx) : (s.setPool p q).ctx n = s.ctx n := rfl
@[simp] theorem State.setPool_session (s : State) (p : Nat) (q : Pool) (n : Nat) : (s.setPool p q).session n = s.session n := rfl
@[simp] theorem State.setPool_queue (s : State) (p : Nat) (q : Pool) (n : Nat) : (s.setPool p q).queue n = s.queue n := rfl
@[simp] theorem State.setPool_chan (s : State) (p : Nat) (q : Pool) (n : Nat) : (s.setPool p q).chan n = s.chan n := rfl
@[simp] theorem State.setPool_now (s : State) (p : Nat) (q : Pool)  : (s.setPool p q).now  = s.now  := rfl
@[simp] theorem State.setPool_cyc (s : State) (p : Nat) (q : Pool)  : (s.setPool p q).cyc  = s.cyc  := rfl
@[simp] theorem State.setFlow_pending (s : State) (f : Nat) (x : Flow) : (s.setFlow f x).pending = s.pending := rfl
@[simp] theorem State.setFlow_out (s : State) (f : Nat) (x : Flow) : (s.setFlow f x).out = s.out := rfl
@[simp] theorem State.setFlow_free (s : State) (f : Nat) (x : Flow) : (s.setFlow f x).free = s.free := rfl
@[simp] theorem State.setFlow_regs (s : State) (f : Nat) (x : Flow) : (s.setFlow f x).regs = s.regs := rfl
@[simp] theorem State.setFlow_fresh (s : State) (f : Nat) (x : Flow) : (s.setFlow f x).fresh = s.fresh := rfl
@[simp] theorem State.setFlow_freshAt (s : State) (f : Nat) (x : Flow) : (s.setFlow f x).freshAt = s.freshAt := rfl
@[simp] theorem State.setFlow_time (s : State) (f : Nat) (x : Flow) : (s.setFlow f x).time = s.time := rfl
@[simp] theorem State.setFlow_agents (s : State) (f : Nat) (x : Flow) : (s.setFlow f x).agents = s.agents := rfl
@[simp] theorem State.setFlow_fns (s : State) (f : Nat) (x : Flow) : (s.setFlow f x).fns = s.fns := rfl
@[simp] theorem State.setFlow_ports (s : State) (f : Nat) (x : Flow) : (s.setFlow f x).ports = s.ports := rfl
@[simp] theorem State.setFlow_sem (s : State) (f : Nat) (x : Flow) : (s.setFlow f x).sem = s.sem := rfl
@[simp] theorem State.setFlow_mbx (s : State) (f : Nat) (x : Flow) : (s.setFlow f x).mbx = s.mbx := rfl
@[simp] theorem State.setFlow_ic (s : State) (f : Nat) (x : Flow) : (s.setFlow f x).ic = s.ic := rfl
@[simp] theorem State.setFlow_tmr (s : State) (f : Nat) (x : Flow) : (s.setFlow f x).tmr = s.tmr := rfl
@[simp] theorem State.setFlow_fc (s : State) (f : Nat) (x : Flow) : (s.setFlow f x).fc = s.fc := rfl
@[simp] theorem State.setFlow_qs (s : State) (f : Nat) (x : Flow) : (s.setFlow f x).qs = s.qs := rfl
@[simp] theorem State.setFlow_sess (s : State) (f : Nat) (x : Flow) : (s.setFlow f x).sess = s.sess := rfl
@[simp] theorem State.setFlow_span (s : State) (f : Nat) (x : Flow) : (s.setFlow f x).span = s.span := rfl
@[simp] theorem State.setFlow_tgTime (s : State) (f : Nat) (x : Flow) : (s.setFlow f x).tgTime = s.tgTime := rfl
@[simp] theorem State.setFlow_tgFree (s : State) (f : Nat) (x : Flow) : (s.setFlow f x).tgFree = s.tgFree := rfl
@[simp] theorem State.setFlow_tgRefill (s : State) (f : Nat) (x : Flow) : (s.setFlow f x).tgRefill = s.tgRefill := rfl
@[simp] theorem State.setFlow_bpm (s : State) (f : Nat) (x : Flow) : (s.setFlow f x).bpm = s.bpm := rfl
@[simp] theorem State.setFlow_dma (s : State) (f : Nat) (x : Flow) : (s.setFlow f x).dma = s.dma := rfl
@[simp] theorem State.setFlow_mem (s : State) (f : Nat) (x : Flow) : (s.setFlow f x).mem = s.mem := rfl
@[simp] theorem State.setFlow_mc (s : State) (f : Nat) (x : Flow) : (s.setFlow f x).mc = s.mc := rfl
@[simp] theorem State.setFlow_conc (s : State) (f : Nat) (x : Flow) : (s.setFlow f x).conc = s.conc := rfl
@[simp] theorem State.setFlow_sec (s : State) (f : Nat) (x : Flow) : (s.setFlow f x).sec = s.sec := rfl
@[simp] theorem State.setFlow_clk (s : State) (f : Nat) (x : Flow) : (s.setFlow f x).clk = s.clk := rfl
@[simp] theorem State.setFlow_board (s : State) (f : Nat) (x : Flow) : (s.setFlow f x).board = s.board := rfl
@[simp] theorem State.setFlow_reg (s : State) (f : Nat) (x : Flow) (o : Nat) : (s.setFlow f x).reg o = s.reg o := rfl
@[simp] theorem State.setFlow_regF (s : State) (f : Nat) (x : Flow) (o l n : Nat) : (s.setFlow f x).regF o l n = s.regF o l n := rfl
@[simp] theorem State.setFlow_regB (s : State) (f : Nat) (x : Flow) (o j : Nat) : (s.setFlow f x).regB o j = s.regB o j := rfl
@[simp] theorem State.setFlow_agent (s : State) (f : Nat) (x : Flow) (n : Nat) : (s.setFlow f x).agent n = s.agent n := rfl
@[simp] theorem State.setFlow_fn (s : State) (f : Nat) (x : Flow) (n : Nat) : (s.setFlow f x).fn n = s.fn n := rfl
@[simp] theorem State.setFlow_port (s : State) (f : Nat) (x : Flow) (n : Nat) : (s.setFlow f x).port n = s.port n := rfl
@[simp] theorem State.setFlow_holder (s : State) (f : Nat) (x : Flow) (n : Nat) : (s.setFlow f x).holder n = s.holder n := rfl
@[simp] theorem State.setFlow_ist (s : State) (f : Nat) (x : Flow) (n : Nat) : (s.setFlow f x).ist n = s.ist n := rfl
@[simp] theorem State.setFlow_box (s : State) (f : Nat) (x : Flow) (n : Nat) : (s.setFlow f x).box n = s.box n := rfl
@[simp] theorem State.setFlow_buf (s : State) (f : Nat) (x : Flow) (n : Nat) : (s.setFlow f x).buf n = s.buf n := rfl
@[simp] theorem State.setFlow_ctx (s : State) (f : Nat) (x : Flow) (n : Ctx) : (s.setFlow f x).ctx n = s.ctx n := rfl
@[simp] theorem State.setFlow_session (s : State) (f : Nat) (x : Flow) (n : Nat) : (s.setFlow f x).session n = s.session n := rfl
@[simp] theorem State.setFlow_queue (s : State) (f : Nat) (x : Flow) (n : Nat) : (s.setFlow f x).queue n = s.queue n := rfl
@[simp] theorem State.setFlow_chan (s : State) (f : Nat) (x : Flow) (n : Nat) : (s.setFlow f x).chan n = s.chan n := rfl
@[simp] theorem State.setFlow_now (s : State) (f : Nat) (x : Flow)  : (s.setFlow f x).now  = s.now  := rfl
@[simp] theorem State.setFlow_cyc (s : State) (f : Nat) (x : Flow)  : (s.setFlow f x).cyc  = s.cyc  := rfl
@[simp] theorem State.setGroup_pending (s : State) (g : Nat) (x : Group) : (s.setGroup g x).pending = s.pending := rfl
@[simp] theorem State.setGroup_out (s : State) (g : Nat) (x : Group) : (s.setGroup g x).out = s.out := rfl
@[simp] theorem State.setGroup_free (s : State) (g : Nat) (x : Group) : (s.setGroup g x).free = s.free := rfl
@[simp] theorem State.setGroup_regs (s : State) (g : Nat) (x : Group) : (s.setGroup g x).regs = s.regs := rfl
@[simp] theorem State.setGroup_fresh (s : State) (g : Nat) (x : Group) : (s.setGroup g x).fresh = s.fresh := rfl
@[simp] theorem State.setGroup_freshAt (s : State) (g : Nat) (x : Group) : (s.setGroup g x).freshAt = s.freshAt := rfl
@[simp] theorem State.setGroup_time (s : State) (g : Nat) (x : Group) : (s.setGroup g x).time = s.time := rfl
@[simp] theorem State.setGroup_agents (s : State) (g : Nat) (x : Group) : (s.setGroup g x).agents = s.agents := rfl
@[simp] theorem State.setGroup_fns (s : State) (g : Nat) (x : Group) : (s.setGroup g x).fns = s.fns := rfl
@[simp] theorem State.setGroup_ports (s : State) (g : Nat) (x : Group) : (s.setGroup g x).ports = s.ports := rfl
@[simp] theorem State.setGroup_sem (s : State) (g : Nat) (x : Group) : (s.setGroup g x).sem = s.sem := rfl
@[simp] theorem State.setGroup_mbx (s : State) (g : Nat) (x : Group) : (s.setGroup g x).mbx = s.mbx := rfl
@[simp] theorem State.setGroup_ic (s : State) (g : Nat) (x : Group) : (s.setGroup g x).ic = s.ic := rfl
@[simp] theorem State.setGroup_tmr (s : State) (g : Nat) (x : Group) : (s.setGroup g x).tmr = s.tmr := rfl
@[simp] theorem State.setGroup_fc (s : State) (g : Nat) (x : Group) : (s.setGroup g x).fc = s.fc := rfl
@[simp] theorem State.setGroup_qs (s : State) (g : Nat) (x : Group) : (s.setGroup g x).qs = s.qs := rfl
@[simp] theorem State.setGroup_sess (s : State) (g : Nat) (x : Group) : (s.setGroup g x).sess = s.sess := rfl
@[simp] theorem State.setGroup_flows (s : State) (g : Nat) (x : Group) : (s.setGroup g x).flows = s.flows := rfl
@[simp] theorem State.setGroup_tgTime (s : State) (g : Nat) (x : Group) : (s.setGroup g x).tgTime = s.tgTime := rfl
@[simp] theorem State.setGroup_tgFree (s : State) (g : Nat) (x : Group) : (s.setGroup g x).tgFree = s.tgFree := rfl
@[simp] theorem State.setGroup_tgRefill (s : State) (g : Nat) (x : Group) : (s.setGroup g x).tgRefill = s.tgRefill := rfl
@[simp] theorem State.setGroup_bpm (s : State) (g : Nat) (x : Group) : (s.setGroup g x).bpm = s.bpm := rfl
@[simp] theorem State.setGroup_dma (s : State) (g : Nat) (x : Group) : (s.setGroup g x).dma = s.dma := rfl
@[simp] theorem State.setGroup_mem (s : State) (g : Nat) (x : Group) : (s.setGroup g x).mem = s.mem := rfl
@[simp] theorem State.setGroup_mc (s : State) (g : Nat) (x : Group) : (s.setGroup g x).mc = s.mc := rfl
@[simp] theorem State.setGroup_conc (s : State) (g : Nat) (x : Group) : (s.setGroup g x).conc = s.conc := rfl
@[simp] theorem State.setGroup_sec (s : State) (g : Nat) (x : Group) : (s.setGroup g x).sec = s.sec := rfl
@[simp] theorem State.setGroup_clk (s : State) (g : Nat) (x : Group) : (s.setGroup g x).clk = s.clk := rfl
@[simp] theorem State.setGroup_board (s : State) (g : Nat) (x : Group) : (s.setGroup g x).board = s.board := rfl
@[simp] theorem State.setGroup_reg (s : State) (g : Nat) (x : Group) (o : Nat) : (s.setGroup g x).reg o = s.reg o := rfl
@[simp] theorem State.setGroup_regF (s : State) (g : Nat) (x : Group) (o l n : Nat) : (s.setGroup g x).regF o l n = s.regF o l n := rfl
@[simp] theorem State.setGroup_regB (s : State) (g : Nat) (x : Group) (o j : Nat) : (s.setGroup g x).regB o j = s.regB o j := rfl
@[simp] theorem State.setGroup_agent (s : State) (g : Nat) (x : Group) (n : Nat) : (s.setGroup g x).agent n = s.agent n := rfl
@[simp] theorem State.setGroup_fn (s : State) (g : Nat) (x : Group) (n : Nat) : (s.setGroup g x).fn n = s.fn n := rfl
@[simp] theorem State.setGroup_port (s : State) (g : Nat) (x : Group) (n : Nat) : (s.setGroup g x).port n = s.port n := rfl
@[simp] theorem State.setGroup_holder (s : State) (g : Nat) (x : Group) (n : Nat) : (s.setGroup g x).holder n = s.holder n := rfl
@[simp] theorem State.setGroup_ist (s : State) (g : Nat) (x : Group) (n : Nat) : (s.setGroup g x).ist n = s.ist n := rfl
@[simp] theorem State.setGroup_box (s : State) (g : Nat) (x : Group) (n : Nat) : (s.setGroup g x).box n = s.box n := rfl
@[simp] theorem State.setGroup_buf (s : State) (g : Nat) (x : Group) (n : Nat) : (s.setGroup g x).buf n = s.buf n := rfl
@[simp] theorem State.setGroup_flow (s : State) (g : Nat) (x : Group) (n : Nat) : (s.setGroup g x).flow n = s.flow n := rfl
@[simp] theorem State.setGroup_ctx (s : State) (g : Nat) (x : Group) (n : Ctx) : (s.setGroup g x).ctx n = s.ctx n := rfl
@[simp] theorem State.setGroup_session (s : State) (g : Nat) (x : Group) (n : Nat) : (s.setGroup g x).session n = s.session n := rfl
@[simp] theorem State.setGroup_queue (s : State) (g : Nat) (x : Group) (n : Nat) : (s.setGroup g x).queue n = s.queue n := rfl
@[simp] theorem State.setGroup_chan (s : State) (g : Nat) (x : Group) (n : Nat) : (s.setGroup g x).chan n = s.chan n := rfl
@[simp] theorem State.setGroup_now (s : State) (g : Nat) (x : Group)  : (s.setGroup g x).now  = s.now  := rfl
@[simp] theorem State.setGroup_cyc (s : State) (g : Nat) (x : Group)  : (s.setGroup g x).cyc  = s.cyc  := rfl
@[simp] theorem State.setPackets_pending (s : State) (ps : List Packet) : (s.setPackets ps).pending = s.pending := rfl
@[simp] theorem State.setPackets_out (s : State) (ps : List Packet) : (s.setPackets ps).out = s.out := rfl
@[simp] theorem State.setPackets_free (s : State) (ps : List Packet) : (s.setPackets ps).free = s.free := rfl
@[simp] theorem State.setPackets_regs (s : State) (ps : List Packet) : (s.setPackets ps).regs = s.regs := rfl
@[simp] theorem State.setPackets_fresh (s : State) (ps : List Packet) : (s.setPackets ps).fresh = s.fresh := rfl
@[simp] theorem State.setPackets_freshAt (s : State) (ps : List Packet) : (s.setPackets ps).freshAt = s.freshAt := rfl
@[simp] theorem State.setPackets_time (s : State) (ps : List Packet) : (s.setPackets ps).time = s.time := rfl
@[simp] theorem State.setPackets_agents (s : State) (ps : List Packet) : (s.setPackets ps).agents = s.agents := rfl
@[simp] theorem State.setPackets_fns (s : State) (ps : List Packet) : (s.setPackets ps).fns = s.fns := rfl
@[simp] theorem State.setPackets_ports (s : State) (ps : List Packet) : (s.setPackets ps).ports = s.ports := rfl
@[simp] theorem State.setPackets_sem (s : State) (ps : List Packet) : (s.setPackets ps).sem = s.sem := rfl
@[simp] theorem State.setPackets_mbx (s : State) (ps : List Packet) : (s.setPackets ps).mbx = s.mbx := rfl
@[simp] theorem State.setPackets_ic (s : State) (ps : List Packet) : (s.setPackets ps).ic = s.ic := rfl
@[simp] theorem State.setPackets_tmr (s : State) (ps : List Packet) : (s.setPackets ps).tmr = s.tmr := rfl
@[simp] theorem State.setPackets_fc (s : State) (ps : List Packet) : (s.setPackets ps).fc = s.fc := rfl
@[simp] theorem State.setPackets_sess (s : State) (ps : List Packet) : (s.setPackets ps).sess = s.sess := rfl
@[simp] theorem State.setPackets_span (s : State) (ps : List Packet) : (s.setPackets ps).span = s.span := rfl
@[simp] theorem State.setPackets_flows (s : State) (ps : List Packet) : (s.setPackets ps).flows = s.flows := rfl
@[simp] theorem State.setPackets_tgTime (s : State) (ps : List Packet) : (s.setPackets ps).tgTime = s.tgTime := rfl
@[simp] theorem State.setPackets_tgFree (s : State) (ps : List Packet) : (s.setPackets ps).tgFree = s.tgFree := rfl
@[simp] theorem State.setPackets_tgRefill (s : State) (ps : List Packet) : (s.setPackets ps).tgRefill = s.tgRefill := rfl
@[simp] theorem State.setPackets_bpm (s : State) (ps : List Packet) : (s.setPackets ps).bpm = s.bpm := rfl
@[simp] theorem State.setPackets_dma (s : State) (ps : List Packet) : (s.setPackets ps).dma = s.dma := rfl
@[simp] theorem State.setPackets_mem (s : State) (ps : List Packet) : (s.setPackets ps).mem = s.mem := rfl
@[simp] theorem State.setPackets_mc (s : State) (ps : List Packet) : (s.setPackets ps).mc = s.mc := rfl
@[simp] theorem State.setPackets_conc (s : State) (ps : List Packet) : (s.setPackets ps).conc = s.conc := rfl
@[simp] theorem State.setPackets_sec (s : State) (ps : List Packet) : (s.setPackets ps).sec = s.sec := rfl
@[simp] theorem State.setPackets_clk (s : State) (ps : List Packet) : (s.setPackets ps).clk = s.clk := rfl
@[simp] theorem State.setPackets_board (s : State) (ps : List Packet) : (s.setPackets ps).board = s.board := rfl
@[simp] theorem State.setPackets_reg (s : State) (ps : List Packet) (o : Nat) : (s.setPackets ps).reg o = s.reg o := rfl
@[simp] theorem State.setPackets_regF (s : State) (ps : List Packet) (o l n : Nat) : (s.setPackets ps).regF o l n = s.regF o l n := rfl
@[simp] theorem State.setPackets_regB (s : State) (ps : List Packet) (o j : Nat) : (s.setPackets ps).regB o j = s.regB o j := rfl
@[simp] theorem State.setPackets_agent (s : State) (ps : List Packet) (n : Nat) : (s.setPackets ps).agent n = s.agent n := rfl
@[simp] theorem State.setPackets_fn (s : State) (ps : List Packet) (n : Nat) : (s.setPackets ps).fn n = s.fn n := rfl
@[simp] theorem State.setPackets_port (s : State) (ps : List Packet) (n : Nat) : (s.setPackets ps).port n = s.port n := rfl
@[simp] theorem State.setPackets_holder (s : State) (ps : List Packet) (n : Nat) : (s.setPackets ps).holder n = s.holder n := rfl
@[simp] theorem State.setPackets_ist (s : State) (ps : List Packet) (n : Nat) : (s.setPackets ps).ist n = s.ist n := rfl
@[simp] theorem State.setPackets_box (s : State) (ps : List Packet) (n : Nat) : (s.setPackets ps).box n = s.box n := rfl
@[simp] theorem State.setPackets_buf (s : State) (ps : List Packet) (n : Nat) : (s.setPackets ps).buf n = s.buf n := rfl
@[simp] theorem State.setPackets_flow (s : State) (ps : List Packet) (n : Nat) : (s.setPackets ps).flow n = s.flow n := rfl
@[simp] theorem State.setPackets_ctx (s : State) (ps : List Packet) (n : Ctx) : (s.setPackets ps).ctx n = s.ctx n := rfl
@[simp] theorem State.setPackets_session (s : State) (ps : List Packet) (n : Nat) : (s.setPackets ps).session n = s.session n := rfl
@[simp] theorem State.setPackets_chan (s : State) (ps : List Packet) (n : Nat) : (s.setPackets ps).chan n = s.chan n := rfl
@[simp] theorem State.setPackets_now (s : State) (ps : List Packet)  : (s.setPackets ps).now  = s.now  := rfl
@[simp] theorem State.setPackets_cyc (s : State) (ps : List Packet)  : (s.setPackets ps).cyc  = s.cyc  := rfl
@[simp] theorem State.setCtx_pending (s : State) (c : Ctx) (x : Context) : (s.setCtx c x).pending = s.pending := rfl
@[simp] theorem State.setCtx_out (s : State) (c : Ctx) (x : Context) : (s.setCtx c x).out = s.out := rfl
@[simp] theorem State.setCtx_free (s : State) (c : Ctx) (x : Context) : (s.setCtx c x).free = s.free := rfl
@[simp] theorem State.setCtx_regs (s : State) (c : Ctx) (x : Context) : (s.setCtx c x).regs = s.regs := rfl
@[simp] theorem State.setCtx_fresh (s : State) (c : Ctx) (x : Context) : (s.setCtx c x).fresh = s.fresh := rfl
@[simp] theorem State.setCtx_freshAt (s : State) (c : Ctx) (x : Context) : (s.setCtx c x).freshAt = s.freshAt := rfl
@[simp] theorem State.setCtx_time (s : State) (c : Ctx) (x : Context) : (s.setCtx c x).time = s.time := rfl
@[simp] theorem State.setCtx_agents (s : State) (c : Ctx) (x : Context) : (s.setCtx c x).agents = s.agents := rfl
@[simp] theorem State.setCtx_fns (s : State) (c : Ctx) (x : Context) : (s.setCtx c x).fns = s.fns := rfl
@[simp] theorem State.setCtx_ports (s : State) (c : Ctx) (x : Context) : (s.setCtx c x).ports = s.ports := rfl
@[simp] theorem State.setCtx_sem (s : State) (c : Ctx) (x : Context) : (s.setCtx c x).sem = s.sem := rfl
@[simp] theorem State.setCtx_mbx (s : State) (c : Ctx) (x : Context) : (s.setCtx c x).mbx = s.mbx := rfl
@[simp] theorem State.setCtx_ic (s : State) (c : Ctx) (x : Context) : (s.setCtx c x).ic = s.ic := rfl
@[simp] theorem State.setCtx_tmr (s : State) (c : Ctx) (x : Context) : (s.setCtx c x).tmr = s.tmr := rfl
@[simp] theorem State.setCtx_fc (s : State) (c : Ctx) (x : Context) : (s.setCtx c x).fc = s.fc := rfl
@[simp] theorem State.setCtx_qs (s : State) (c : Ctx) (x : Context) : (s.setCtx c x).qs = s.qs := rfl
@[simp] theorem State.setCtx_sess (s : State) (c : Ctx) (x : Context) : (s.setCtx c x).sess = s.sess := rfl
@[simp] theorem State.setCtx_span (s : State) (c : Ctx) (x : Context) : (s.setCtx c x).span = s.span := rfl
@[simp] theorem State.setCtx_flows (s : State) (c : Ctx) (x : Context) : (s.setCtx c x).flows = s.flows := rfl
@[simp] theorem State.setCtx_tgTime (s : State) (c : Ctx) (x : Context) : (s.setCtx c x).tgTime = s.tgTime := rfl
@[simp] theorem State.setCtx_tgFree (s : State) (c : Ctx) (x : Context) : (s.setCtx c x).tgFree = s.tgFree := rfl
@[simp] theorem State.setCtx_tgRefill (s : State) (c : Ctx) (x : Context) : (s.setCtx c x).tgRefill = s.tgRefill := rfl
@[simp] theorem State.setCtx_bpm (s : State) (c : Ctx) (x : Context) : (s.setCtx c x).bpm = s.bpm := rfl
@[simp] theorem State.setCtx_dma (s : State) (c : Ctx) (x : Context) : (s.setCtx c x).dma = s.dma := rfl
@[simp] theorem State.setCtx_mem (s : State) (c : Ctx) (x : Context) : (s.setCtx c x).mem = s.mem := rfl
@[simp] theorem State.setCtx_mc (s : State) (c : Ctx) (x : Context) : (s.setCtx c x).mc = s.mc := rfl
@[simp] theorem State.setCtx_sec (s : State) (c : Ctx) (x : Context) : (s.setCtx c x).sec = s.sec := rfl
@[simp] theorem State.setCtx_clk (s : State) (c : Ctx) (x : Context) : (s.setCtx c x).clk = s.clk := rfl
@[simp] theorem State.setCtx_board (s : State) (c : Ctx) (x : Context) : (s.setCtx c x).board = s.board := rfl
@[simp] theorem State.setCtx_reg (s : State) (c : Ctx) (x : Context) (o : Nat) : (s.setCtx c x).reg o = s.reg o := rfl
@[simp] theorem State.setCtx_regF (s : State) (c : Ctx) (x : Context) (o l n : Nat) : (s.setCtx c x).regF o l n = s.regF o l n := rfl
@[simp] theorem State.setCtx_regB (s : State) (c : Ctx) (x : Context) (o j : Nat) : (s.setCtx c x).regB o j = s.regB o j := rfl
@[simp] theorem State.setCtx_agent (s : State) (c : Ctx) (x : Context) (n : Nat) : (s.setCtx c x).agent n = s.agent n := rfl
@[simp] theorem State.setCtx_fn (s : State) (c : Ctx) (x : Context) (n : Nat) : (s.setCtx c x).fn n = s.fn n := rfl
@[simp] theorem State.setCtx_port (s : State) (c : Ctx) (x : Context) (n : Nat) : (s.setCtx c x).port n = s.port n := rfl
@[simp] theorem State.setCtx_holder (s : State) (c : Ctx) (x : Context) (n : Nat) : (s.setCtx c x).holder n = s.holder n := rfl
@[simp] theorem State.setCtx_ist (s : State) (c : Ctx) (x : Context) (n : Nat) : (s.setCtx c x).ist n = s.ist n := rfl
@[simp] theorem State.setCtx_box (s : State) (c : Ctx) (x : Context) (n : Nat) : (s.setCtx c x).box n = s.box n := rfl
@[simp] theorem State.setCtx_buf (s : State) (c : Ctx) (x : Context) (n : Nat) : (s.setCtx c x).buf n = s.buf n := rfl
@[simp] theorem State.setCtx_flow (s : State) (c : Ctx) (x : Context) (n : Nat) : (s.setCtx c x).flow n = s.flow n := rfl
@[simp] theorem State.setCtx_session (s : State) (c : Ctx) (x : Context) (n : Nat) : (s.setCtx c x).session n = s.session n := rfl
@[simp] theorem State.setCtx_queue (s : State) (c : Ctx) (x : Context) (n : Nat) : (s.setCtx c x).queue n = s.queue n := rfl
@[simp] theorem State.setCtx_chan (s : State) (c : Ctx) (x : Context) (n : Nat) : (s.setCtx c x).chan n = s.chan n := rfl
@[simp] theorem State.setCtx_now (s : State) (c : Ctx) (x : Context)  : (s.setCtx c x).now  = s.now  := rfl
@[simp] theorem State.setCtx_cyc (s : State) (c : Ctx) (x : Context)  : (s.setCtx c x).cyc  = s.cyc  := rfl
@[simp] theorem State.setSession_pending (s : State) (i : Nat) (x : Session) : (s.setSession i x).pending = s.pending := rfl
@[simp] theorem State.setSession_out (s : State) (i : Nat) (x : Session) : (s.setSession i x).out = s.out := rfl
@[simp] theorem State.setSession_free (s : State) (i : Nat) (x : Session) : (s.setSession i x).free = s.free := rfl
@[simp] theorem State.setSession_regs (s : State) (i : Nat) (x : Session) : (s.setSession i x).regs = s.regs := rfl
@[simp] theorem State.setSession_fresh (s : State) (i : Nat) (x : Session) : (s.setSession i x).fresh = s.fresh := rfl
@[simp] theorem State.setSession_freshAt (s : State) (i : Nat) (x : Session) : (s.setSession i x).freshAt = s.freshAt := rfl
@[simp] theorem State.setSession_time (s : State) (i : Nat) (x : Session) : (s.setSession i x).time = s.time := rfl
@[simp] theorem State.setSession_agents (s : State) (i : Nat) (x : Session) : (s.setSession i x).agents = s.agents := rfl
@[simp] theorem State.setSession_fns (s : State) (i : Nat) (x : Session) : (s.setSession i x).fns = s.fns := rfl
@[simp] theorem State.setSession_ports (s : State) (i : Nat) (x : Session) : (s.setSession i x).ports = s.ports := rfl
@[simp] theorem State.setSession_sem (s : State) (i : Nat) (x : Session) : (s.setSession i x).sem = s.sem := rfl
@[simp] theorem State.setSession_mbx (s : State) (i : Nat) (x : Session) : (s.setSession i x).mbx = s.mbx := rfl
@[simp] theorem State.setSession_ic (s : State) (i : Nat) (x : Session) : (s.setSession i x).ic = s.ic := rfl
@[simp] theorem State.setSession_tmr (s : State) (i : Nat) (x : Session) : (s.setSession i x).tmr = s.tmr := rfl
@[simp] theorem State.setSession_fc (s : State) (i : Nat) (x : Session) : (s.setSession i x).fc = s.fc := rfl
@[simp] theorem State.setSession_qs (s : State) (i : Nat) (x : Session) : (s.setSession i x).qs = s.qs := rfl
@[simp] theorem State.setSession_span (s : State) (i : Nat) (x : Session) : (s.setSession i x).span = s.span := rfl
@[simp] theorem State.setSession_flows (s : State) (i : Nat) (x : Session) : (s.setSession i x).flows = s.flows := rfl
@[simp] theorem State.setSession_tgTime (s : State) (i : Nat) (x : Session) : (s.setSession i x).tgTime = s.tgTime := rfl
@[simp] theorem State.setSession_tgFree (s : State) (i : Nat) (x : Session) : (s.setSession i x).tgFree = s.tgFree := rfl
@[simp] theorem State.setSession_tgRefill (s : State) (i : Nat) (x : Session) : (s.setSession i x).tgRefill = s.tgRefill := rfl
@[simp] theorem State.setSession_bpm (s : State) (i : Nat) (x : Session) : (s.setSession i x).bpm = s.bpm := rfl
@[simp] theorem State.setSession_dma (s : State) (i : Nat) (x : Session) : (s.setSession i x).dma = s.dma := rfl
@[simp] theorem State.setSession_mem (s : State) (i : Nat) (x : Session) : (s.setSession i x).mem = s.mem := rfl
@[simp] theorem State.setSession_mc (s : State) (i : Nat) (x : Session) : (s.setSession i x).mc = s.mc := rfl
@[simp] theorem State.setSession_conc (s : State) (i : Nat) (x : Session) : (s.setSession i x).conc = s.conc := rfl
@[simp] theorem State.setSession_sec (s : State) (i : Nat) (x : Session) : (s.setSession i x).sec = s.sec := rfl
@[simp] theorem State.setSession_clk (s : State) (i : Nat) (x : Session) : (s.setSession i x).clk = s.clk := rfl
@[simp] theorem State.setSession_board (s : State) (i : Nat) (x : Session) : (s.setSession i x).board = s.board := rfl
@[simp] theorem State.setSession_reg (s : State) (i : Nat) (x : Session) (o : Nat) : (s.setSession i x).reg o = s.reg o := rfl
@[simp] theorem State.setSession_regF (s : State) (i : Nat) (x : Session) (o l n : Nat) : (s.setSession i x).regF o l n = s.regF o l n := rfl
@[simp] theorem State.setSession_regB (s : State) (i : Nat) (x : Session) (o j : Nat) : (s.setSession i x).regB o j = s.regB o j := rfl
@[simp] theorem State.setSession_agent (s : State) (i : Nat) (x : Session) (n : Nat) : (s.setSession i x).agent n = s.agent n := rfl
@[simp] theorem State.setSession_fn (s : State) (i : Nat) (x : Session) (n : Nat) : (s.setSession i x).fn n = s.fn n := rfl
@[simp] theorem State.setSession_port (s : State) (i : Nat) (x : Session) (n : Nat) : (s.setSession i x).port n = s.port n := rfl
@[simp] theorem State.setSession_holder (s : State) (i : Nat) (x : Session) (n : Nat) : (s.setSession i x).holder n = s.holder n := rfl
@[simp] theorem State.setSession_ist (s : State) (i : Nat) (x : Session) (n : Nat) : (s.setSession i x).ist n = s.ist n := rfl
@[simp] theorem State.setSession_box (s : State) (i : Nat) (x : Session) (n : Nat) : (s.setSession i x).box n = s.box n := rfl
@[simp] theorem State.setSession_buf (s : State) (i : Nat) (x : Session) (n : Nat) : (s.setSession i x).buf n = s.buf n := rfl
@[simp] theorem State.setSession_flow (s : State) (i : Nat) (x : Session) (n : Nat) : (s.setSession i x).flow n = s.flow n := rfl
@[simp] theorem State.setSession_ctx (s : State) (i : Nat) (x : Session) (n : Ctx) : (s.setSession i x).ctx n = s.ctx n := rfl
@[simp] theorem State.setSession_queue (s : State) (i : Nat) (x : Session) (n : Nat) : (s.setSession i x).queue n = s.queue n := rfl
@[simp] theorem State.setSession_chan (s : State) (i : Nat) (x : Session) (n : Nat) : (s.setSession i x).chan n = s.chan n := rfl
@[simp] theorem State.setSession_now (s : State) (i : Nat) (x : Session)  : (s.setSession i x).now  = s.now  := rfl
@[simp] theorem State.setSession_cyc (s : State) (i : Nat) (x : Session)  : (s.setSession i x).cyc  = s.cyc  := rfl
@[simp] theorem State.setFrames_pending (s : State) (fs : List Frame) : (s.setFrames fs).pending = s.pending := rfl
@[simp] theorem State.setFrames_out (s : State) (fs : List Frame) : (s.setFrames fs).out = s.out := rfl
@[simp] theorem State.setFrames_free (s : State) (fs : List Frame) : (s.setFrames fs).free = s.free := rfl
@[simp] theorem State.setFrames_regs (s : State) (fs : List Frame) : (s.setFrames fs).regs = s.regs := rfl
@[simp] theorem State.setFrames_fresh (s : State) (fs : List Frame) : (s.setFrames fs).fresh = s.fresh := rfl
@[simp] theorem State.setFrames_freshAt (s : State) (fs : List Frame) : (s.setFrames fs).freshAt = s.freshAt := rfl
@[simp] theorem State.setFrames_time (s : State) (fs : List Frame) : (s.setFrames fs).time = s.time := rfl
@[simp] theorem State.setFrames_agents (s : State) (fs : List Frame) : (s.setFrames fs).agents = s.agents := rfl
@[simp] theorem State.setFrames_fns (s : State) (fs : List Frame) : (s.setFrames fs).fns = s.fns := rfl
@[simp] theorem State.setFrames_ports (s : State) (fs : List Frame) : (s.setFrames fs).ports = s.ports := rfl
@[simp] theorem State.setFrames_sem (s : State) (fs : List Frame) : (s.setFrames fs).sem = s.sem := rfl
@[simp] theorem State.setFrames_mbx (s : State) (fs : List Frame) : (s.setFrames fs).mbx = s.mbx := rfl
@[simp] theorem State.setFrames_ic (s : State) (fs : List Frame) : (s.setFrames fs).ic = s.ic := rfl
@[simp] theorem State.setFrames_tmr (s : State) (fs : List Frame) : (s.setFrames fs).tmr = s.tmr := rfl
@[simp] theorem State.setFrames_fc (s : State) (fs : List Frame) : (s.setFrames fs).fc = s.fc := rfl
@[simp] theorem State.setFrames_qs (s : State) (fs : List Frame) : (s.setFrames fs).qs = s.qs := rfl
@[simp] theorem State.setFrames_sess (s : State) (fs : List Frame) : (s.setFrames fs).sess = s.sess := rfl
@[simp] theorem State.setFrames_flows (s : State) (fs : List Frame) : (s.setFrames fs).flows = s.flows := rfl
@[simp] theorem State.setFrames_tgTime (s : State) (fs : List Frame) : (s.setFrames fs).tgTime = s.tgTime := rfl
@[simp] theorem State.setFrames_tgFree (s : State) (fs : List Frame) : (s.setFrames fs).tgFree = s.tgFree := rfl
@[simp] theorem State.setFrames_tgRefill (s : State) (fs : List Frame) : (s.setFrames fs).tgRefill = s.tgRefill := rfl
@[simp] theorem State.setFrames_bpm (s : State) (fs : List Frame) : (s.setFrames fs).bpm = s.bpm := rfl
@[simp] theorem State.setFrames_dma (s : State) (fs : List Frame) : (s.setFrames fs).dma = s.dma := rfl
@[simp] theorem State.setFrames_mem (s : State) (fs : List Frame) : (s.setFrames fs).mem = s.mem := rfl
@[simp] theorem State.setFrames_mc (s : State) (fs : List Frame) : (s.setFrames fs).mc = s.mc := rfl
@[simp] theorem State.setFrames_conc (s : State) (fs : List Frame) : (s.setFrames fs).conc = s.conc := rfl
@[simp] theorem State.setFrames_sec (s : State) (fs : List Frame) : (s.setFrames fs).sec = s.sec := rfl
@[simp] theorem State.setFrames_clk (s : State) (fs : List Frame) : (s.setFrames fs).clk = s.clk := rfl
@[simp] theorem State.setFrames_board (s : State) (fs : List Frame) : (s.setFrames fs).board = s.board := rfl
@[simp] theorem State.setFrames_reg (s : State) (fs : List Frame) (o : Nat) : (s.setFrames fs).reg o = s.reg o := rfl
@[simp] theorem State.setFrames_regF (s : State) (fs : List Frame) (o l n : Nat) : (s.setFrames fs).regF o l n = s.regF o l n := rfl
@[simp] theorem State.setFrames_regB (s : State) (fs : List Frame) (o j : Nat) : (s.setFrames fs).regB o j = s.regB o j := rfl
@[simp] theorem State.setFrames_agent (s : State) (fs : List Frame) (n : Nat) : (s.setFrames fs).agent n = s.agent n := rfl
@[simp] theorem State.setFrames_fn (s : State) (fs : List Frame) (n : Nat) : (s.setFrames fs).fn n = s.fn n := rfl
@[simp] theorem State.setFrames_port (s : State) (fs : List Frame) (n : Nat) : (s.setFrames fs).port n = s.port n := rfl
@[simp] theorem State.setFrames_holder (s : State) (fs : List Frame) (n : Nat) : (s.setFrames fs).holder n = s.holder n := rfl
@[simp] theorem State.setFrames_ist (s : State) (fs : List Frame) (n : Nat) : (s.setFrames fs).ist n = s.ist n := rfl
@[simp] theorem State.setFrames_box (s : State) (fs : List Frame) (n : Nat) : (s.setFrames fs).box n = s.box n := rfl
@[simp] theorem State.setFrames_buf (s : State) (fs : List Frame) (n : Nat) : (s.setFrames fs).buf n = s.buf n := rfl
@[simp] theorem State.setFrames_flow (s : State) (fs : List Frame) (n : Nat) : (s.setFrames fs).flow n = s.flow n := rfl
@[simp] theorem State.setFrames_ctx (s : State) (fs : List Frame) (n : Ctx) : (s.setFrames fs).ctx n = s.ctx n := rfl
@[simp] theorem State.setFrames_session (s : State) (fs : List Frame) (n : Nat) : (s.setFrames fs).session n = s.session n := rfl
@[simp] theorem State.setFrames_queue (s : State) (fs : List Frame) (n : Nat) : (s.setFrames fs).queue n = s.queue n := rfl
@[simp] theorem State.setFrames_chan (s : State) (fs : List Frame) (n : Nat) : (s.setFrames fs).chan n = s.chan n := rfl
@[simp] theorem State.setFrames_now (s : State) (fs : List Frame)  : (s.setFrames fs).now  = s.now  := rfl
@[simp] theorem State.setFrames_cyc (s : State) (fs : List Frame)  : (s.setFrames fs).cyc  = s.cyc  := rfl
@[simp] theorem State.setKey_pending (s : State) (k : Nat) (x : KeySlot) : (s.setKey k x).pending = s.pending := rfl
@[simp] theorem State.setKey_out (s : State) (k : Nat) (x : KeySlot) : (s.setKey k x).out = s.out := rfl
@[simp] theorem State.setKey_free (s : State) (k : Nat) (x : KeySlot) : (s.setKey k x).free = s.free := rfl
@[simp] theorem State.setKey_regs (s : State) (k : Nat) (x : KeySlot) : (s.setKey k x).regs = s.regs := rfl
@[simp] theorem State.setKey_fresh (s : State) (k : Nat) (x : KeySlot) : (s.setKey k x).fresh = s.fresh := rfl
@[simp] theorem State.setKey_freshAt (s : State) (k : Nat) (x : KeySlot) : (s.setKey k x).freshAt = s.freshAt := rfl
@[simp] theorem State.setKey_time (s : State) (k : Nat) (x : KeySlot) : (s.setKey k x).time = s.time := rfl
@[simp] theorem State.setKey_agents (s : State) (k : Nat) (x : KeySlot) : (s.setKey k x).agents = s.agents := rfl
@[simp] theorem State.setKey_fns (s : State) (k : Nat) (x : KeySlot) : (s.setKey k x).fns = s.fns := rfl
@[simp] theorem State.setKey_ports (s : State) (k : Nat) (x : KeySlot) : (s.setKey k x).ports = s.ports := rfl
@[simp] theorem State.setKey_sem (s : State) (k : Nat) (x : KeySlot) : (s.setKey k x).sem = s.sem := rfl
@[simp] theorem State.setKey_mbx (s : State) (k : Nat) (x : KeySlot) : (s.setKey k x).mbx = s.mbx := rfl
@[simp] theorem State.setKey_ic (s : State) (k : Nat) (x : KeySlot) : (s.setKey k x).ic = s.ic := rfl
@[simp] theorem State.setKey_tmr (s : State) (k : Nat) (x : KeySlot) : (s.setKey k x).tmr = s.tmr := rfl
@[simp] theorem State.setKey_fc (s : State) (k : Nat) (x : KeySlot) : (s.setKey k x).fc = s.fc := rfl
@[simp] theorem State.setKey_qs (s : State) (k : Nat) (x : KeySlot) : (s.setKey k x).qs = s.qs := rfl
@[simp] theorem State.setKey_sess (s : State) (k : Nat) (x : KeySlot) : (s.setKey k x).sess = s.sess := rfl
@[simp] theorem State.setKey_span (s : State) (k : Nat) (x : KeySlot) : (s.setKey k x).span = s.span := rfl
@[simp] theorem State.setKey_flows (s : State) (k : Nat) (x : KeySlot) : (s.setKey k x).flows = s.flows := rfl
@[simp] theorem State.setKey_tgTime (s : State) (k : Nat) (x : KeySlot) : (s.setKey k x).tgTime = s.tgTime := rfl
@[simp] theorem State.setKey_tgFree (s : State) (k : Nat) (x : KeySlot) : (s.setKey k x).tgFree = s.tgFree := rfl
@[simp] theorem State.setKey_tgRefill (s : State) (k : Nat) (x : KeySlot) : (s.setKey k x).tgRefill = s.tgRefill := rfl
@[simp] theorem State.setKey_bpm (s : State) (k : Nat) (x : KeySlot) : (s.setKey k x).bpm = s.bpm := rfl
@[simp] theorem State.setKey_dma (s : State) (k : Nat) (x : KeySlot) : (s.setKey k x).dma = s.dma := rfl
@[simp] theorem State.setKey_mem (s : State) (k : Nat) (x : KeySlot) : (s.setKey k x).mem = s.mem := rfl
@[simp] theorem State.setKey_mc (s : State) (k : Nat) (x : KeySlot) : (s.setKey k x).mc = s.mc := rfl
@[simp] theorem State.setKey_conc (s : State) (k : Nat) (x : KeySlot) : (s.setKey k x).conc = s.conc := rfl
@[simp] theorem State.setKey_clk (s : State) (k : Nat) (x : KeySlot) : (s.setKey k x).clk = s.clk := rfl
@[simp] theorem State.setKey_board (s : State) (k : Nat) (x : KeySlot) : (s.setKey k x).board = s.board := rfl
@[simp] theorem State.setKey_reg (s : State) (k : Nat) (x : KeySlot) (o : Nat) : (s.setKey k x).reg o = s.reg o := rfl
@[simp] theorem State.setKey_regF (s : State) (k : Nat) (x : KeySlot) (o l n : Nat) : (s.setKey k x).regF o l n = s.regF o l n := rfl
@[simp] theorem State.setKey_regB (s : State) (k : Nat) (x : KeySlot) (o j : Nat) : (s.setKey k x).regB o j = s.regB o j := rfl
@[simp] theorem State.setKey_agent (s : State) (k : Nat) (x : KeySlot) (n : Nat) : (s.setKey k x).agent n = s.agent n := rfl
@[simp] theorem State.setKey_fn (s : State) (k : Nat) (x : KeySlot) (n : Nat) : (s.setKey k x).fn n = s.fn n := rfl
@[simp] theorem State.setKey_port (s : State) (k : Nat) (x : KeySlot) (n : Nat) : (s.setKey k x).port n = s.port n := rfl
@[simp] theorem State.setKey_holder (s : State) (k : Nat) (x : KeySlot) (n : Nat) : (s.setKey k x).holder n = s.holder n := rfl
@[simp] theorem State.setKey_ist (s : State) (k : Nat) (x : KeySlot) (n : Nat) : (s.setKey k x).ist n = s.ist n := rfl
@[simp] theorem State.setKey_box (s : State) (k : Nat) (x : KeySlot) (n : Nat) : (s.setKey k x).box n = s.box n := rfl
@[simp] theorem State.setKey_buf (s : State) (k : Nat) (x : KeySlot) (n : Nat) : (s.setKey k x).buf n = s.buf n := rfl
@[simp] theorem State.setKey_flow (s : State) (k : Nat) (x : KeySlot) (n : Nat) : (s.setKey k x).flow n = s.flow n := rfl
@[simp] theorem State.setKey_ctx (s : State) (k : Nat) (x : KeySlot) (n : Ctx) : (s.setKey k x).ctx n = s.ctx n := rfl
@[simp] theorem State.setKey_session (s : State) (k : Nat) (x : KeySlot) (n : Nat) : (s.setKey k x).session n = s.session n := rfl
@[simp] theorem State.setKey_queue (s : State) (k : Nat) (x : KeySlot) (n : Nat) : (s.setKey k x).queue n = s.queue n := rfl
@[simp] theorem State.setKey_chan (s : State) (k : Nat) (x : KeySlot) (n : Nat) : (s.setKey k x).chan n = s.chan n := rfl
@[simp] theorem State.setKey_now (s : State) (k : Nat) (x : KeySlot)  : (s.setKey k x).now  = s.now  := rfl
@[simp] theorem State.setKey_cyc (s : State) (k : Nat) (x : KeySlot)  : (s.setKey k x).cyc  = s.cyc  := rfl
@[simp] theorem State.setQueue_pending (s : State) (q : Nat) (x : Queue) : (s.setQueue q x).pending = s.pending := rfl
@[simp] theorem State.setQueue_out (s : State) (q : Nat) (x : Queue) : (s.setQueue q x).out = s.out := rfl
@[simp] theorem State.setQueue_free (s : State) (q : Nat) (x : Queue) : (s.setQueue q x).free = s.free := rfl
@[simp] theorem State.setQueue_regs (s : State) (q : Nat) (x : Queue) : (s.setQueue q x).regs = s.regs := rfl
@[simp] theorem State.setQueue_fresh (s : State) (q : Nat) (x : Queue) : (s.setQueue q x).fresh = s.fresh := rfl
@[simp] theorem State.setQueue_freshAt (s : State) (q : Nat) (x : Queue) : (s.setQueue q x).freshAt = s.freshAt := rfl
@[simp] theorem State.setQueue_time (s : State) (q : Nat) (x : Queue) : (s.setQueue q x).time = s.time := rfl
@[simp] theorem State.setQueue_agents (s : State) (q : Nat) (x : Queue) : (s.setQueue q x).agents = s.agents := rfl
@[simp] theorem State.setQueue_fns (s : State) (q : Nat) (x : Queue) : (s.setQueue q x).fns = s.fns := rfl
@[simp] theorem State.setQueue_ports (s : State) (q : Nat) (x : Queue) : (s.setQueue q x).ports = s.ports := rfl
@[simp] theorem State.setQueue_sem (s : State) (q : Nat) (x : Queue) : (s.setQueue q x).sem = s.sem := rfl
@[simp] theorem State.setQueue_mbx (s : State) (q : Nat) (x : Queue) : (s.setQueue q x).mbx = s.mbx := rfl
@[simp] theorem State.setQueue_ic (s : State) (q : Nat) (x : Queue) : (s.setQueue q x).ic = s.ic := rfl
@[simp] theorem State.setQueue_tmr (s : State) (q : Nat) (x : Queue) : (s.setQueue q x).tmr = s.tmr := rfl
@[simp] theorem State.setQueue_fc (s : State) (q : Nat) (x : Queue) : (s.setQueue q x).fc = s.fc := rfl
@[simp] theorem State.setQueue_sess (s : State) (q : Nat) (x : Queue) : (s.setQueue q x).sess = s.sess := rfl
@[simp] theorem State.setQueue_span (s : State) (q : Nat) (x : Queue) : (s.setQueue q x).span = s.span := rfl
@[simp] theorem State.setQueue_flows (s : State) (q : Nat) (x : Queue) : (s.setQueue q x).flows = s.flows := rfl
@[simp] theorem State.setQueue_tgTime (s : State) (q : Nat) (x : Queue) : (s.setQueue q x).tgTime = s.tgTime := rfl
@[simp] theorem State.setQueue_tgFree (s : State) (q : Nat) (x : Queue) : (s.setQueue q x).tgFree = s.tgFree := rfl
@[simp] theorem State.setQueue_tgRefill (s : State) (q : Nat) (x : Queue) : (s.setQueue q x).tgRefill = s.tgRefill := rfl
@[simp] theorem State.setQueue_bpm (s : State) (q : Nat) (x : Queue) : (s.setQueue q x).bpm = s.bpm := rfl
@[simp] theorem State.setQueue_dma (s : State) (q : Nat) (x : Queue) : (s.setQueue q x).dma = s.dma := rfl
@[simp] theorem State.setQueue_mem (s : State) (q : Nat) (x : Queue) : (s.setQueue q x).mem = s.mem := rfl
@[simp] theorem State.setQueue_mc (s : State) (q : Nat) (x : Queue) : (s.setQueue q x).mc = s.mc := rfl
@[simp] theorem State.setQueue_conc (s : State) (q : Nat) (x : Queue) : (s.setQueue q x).conc = s.conc := rfl
@[simp] theorem State.setQueue_sec (s : State) (q : Nat) (x : Queue) : (s.setQueue q x).sec = s.sec := rfl
@[simp] theorem State.setQueue_clk (s : State) (q : Nat) (x : Queue) : (s.setQueue q x).clk = s.clk := rfl
@[simp] theorem State.setQueue_board (s : State) (q : Nat) (x : Queue) : (s.setQueue q x).board = s.board := rfl
@[simp] theorem State.setQueue_reg (s : State) (q : Nat) (x : Queue) (o : Nat) : (s.setQueue q x).reg o = s.reg o := rfl
@[simp] theorem State.setQueue_regF (s : State) (q : Nat) (x : Queue) (o l n : Nat) : (s.setQueue q x).regF o l n = s.regF o l n := rfl
@[simp] theorem State.setQueue_regB (s : State) (q : Nat) (x : Queue) (o j : Nat) : (s.setQueue q x).regB o j = s.regB o j := rfl
@[simp] theorem State.setQueue_agent (s : State) (q : Nat) (x : Queue) (n : Nat) : (s.setQueue q x).agent n = s.agent n := rfl
@[simp] theorem State.setQueue_fn (s : State) (q : Nat) (x : Queue) (n : Nat) : (s.setQueue q x).fn n = s.fn n := rfl
@[simp] theorem State.setQueue_port (s : State) (q : Nat) (x : Queue) (n : Nat) : (s.setQueue q x).port n = s.port n := rfl
@[simp] theorem State.setQueue_holder (s : State) (q : Nat) (x : Queue) (n : Nat) : (s.setQueue q x).holder n = s.holder n := rfl
@[simp] theorem State.setQueue_ist (s : State) (q : Nat) (x : Queue) (n : Nat) : (s.setQueue q x).ist n = s.ist n := rfl
@[simp] theorem State.setQueue_box (s : State) (q : Nat) (x : Queue) (n : Nat) : (s.setQueue q x).box n = s.box n := rfl
@[simp] theorem State.setQueue_buf (s : State) (q : Nat) (x : Queue) (n : Nat) : (s.setQueue q x).buf n = s.buf n := rfl
@[simp] theorem State.setQueue_flow (s : State) (q : Nat) (x : Queue) (n : Nat) : (s.setQueue q x).flow n = s.flow n := rfl
@[simp] theorem State.setQueue_ctx (s : State) (q : Nat) (x : Queue) (n : Ctx) : (s.setQueue q x).ctx n = s.ctx n := rfl
@[simp] theorem State.setQueue_session (s : State) (q : Nat) (x : Queue) (n : Nat) : (s.setQueue q x).session n = s.session n := rfl
@[simp] theorem State.setQueue_chan (s : State) (q : Nat) (x : Queue) (n : Nat) : (s.setQueue q x).chan n = s.chan n := rfl
@[simp] theorem State.setQueue_now (s : State) (q : Nat) (x : Queue)  : (s.setQueue q x).now  = s.now  := rfl
@[simp] theorem State.setQueue_cyc (s : State) (q : Nat) (x : Queue)  : (s.setQueue q x).cyc  = s.cyc  := rfl
@[simp] theorem State.setChan_pending (s : State) (n : Nat) (c : Channel) : (s.setChan n c).pending = s.pending := rfl
@[simp] theorem State.setChan_out (s : State) (n : Nat) (c : Channel) : (s.setChan n c).out = s.out := rfl
@[simp] theorem State.setChan_free (s : State) (n : Nat) (c : Channel) : (s.setChan n c).free = s.free := rfl
@[simp] theorem State.setChan_regs (s : State) (n : Nat) (c : Channel) : (s.setChan n c).regs = s.regs := rfl
@[simp] theorem State.setChan_fresh (s : State) (n : Nat) (c : Channel) : (s.setChan n c).fresh = s.fresh := rfl
@[simp] theorem State.setChan_freshAt (s : State) (n : Nat) (c : Channel) : (s.setChan n c).freshAt = s.freshAt := rfl
@[simp] theorem State.setChan_time (s : State) (n : Nat) (c : Channel) : (s.setChan n c).time = s.time := rfl
@[simp] theorem State.setChan_agents (s : State) (n : Nat) (c : Channel) : (s.setChan n c).agents = s.agents := rfl
@[simp] theorem State.setChan_fns (s : State) (n : Nat) (c : Channel) : (s.setChan n c).fns = s.fns := rfl
@[simp] theorem State.setChan_ports (s : State) (n : Nat) (c : Channel) : (s.setChan n c).ports = s.ports := rfl
@[simp] theorem State.setChan_sem (s : State) (n : Nat) (c : Channel) : (s.setChan n c).sem = s.sem := rfl
@[simp] theorem State.setChan_mbx (s : State) (n : Nat) (c : Channel) : (s.setChan n c).mbx = s.mbx := rfl
@[simp] theorem State.setChan_ic (s : State) (n : Nat) (c : Channel) : (s.setChan n c).ic = s.ic := rfl
@[simp] theorem State.setChan_tmr (s : State) (n : Nat) (c : Channel) : (s.setChan n c).tmr = s.tmr := rfl
@[simp] theorem State.setChan_fc (s : State) (n : Nat) (c : Channel) : (s.setChan n c).fc = s.fc := rfl
@[simp] theorem State.setChan_qs (s : State) (n : Nat) (c : Channel) : (s.setChan n c).qs = s.qs := rfl
@[simp] theorem State.setChan_sess (s : State) (n : Nat) (c : Channel) : (s.setChan n c).sess = s.sess := rfl
@[simp] theorem State.setChan_span (s : State) (n : Nat) (c : Channel) : (s.setChan n c).span = s.span := rfl
@[simp] theorem State.setChan_flows (s : State) (n : Nat) (c : Channel) : (s.setChan n c).flows = s.flows := rfl
@[simp] theorem State.setChan_tgTime (s : State) (n : Nat) (c : Channel) : (s.setChan n c).tgTime = s.tgTime := rfl
@[simp] theorem State.setChan_tgFree (s : State) (n : Nat) (c : Channel) : (s.setChan n c).tgFree = s.tgFree := rfl
@[simp] theorem State.setChan_tgRefill (s : State) (n : Nat) (c : Channel) : (s.setChan n c).tgRefill = s.tgRefill := rfl
@[simp] theorem State.setChan_bpm (s : State) (n : Nat) (c : Channel) : (s.setChan n c).bpm = s.bpm := rfl
@[simp] theorem State.setChan_mem (s : State) (n : Nat) (c : Channel) : (s.setChan n c).mem = s.mem := rfl
@[simp] theorem State.setChan_mc (s : State) (n : Nat) (c : Channel) : (s.setChan n c).mc = s.mc := rfl
@[simp] theorem State.setChan_conc (s : State) (n : Nat) (c : Channel) : (s.setChan n c).conc = s.conc := rfl
@[simp] theorem State.setChan_sec (s : State) (n : Nat) (c : Channel) : (s.setChan n c).sec = s.sec := rfl
@[simp] theorem State.setChan_clk (s : State) (n : Nat) (c : Channel) : (s.setChan n c).clk = s.clk := rfl
@[simp] theorem State.setChan_board (s : State) (n : Nat) (c : Channel) : (s.setChan n c).board = s.board := rfl
@[simp] theorem State.setChan_reg (s : State) (n : Nat) (c : Channel) (o : Nat) : (s.setChan n c).reg o = s.reg o := rfl
@[simp] theorem State.setChan_regF (s : State) (n : Nat) (c : Channel) (o l n' : Nat) : (s.setChan n c).regF o l n' = s.regF o l n' := rfl
@[simp] theorem State.setChan_regB (s : State) (n : Nat) (c : Channel) (o j : Nat) : (s.setChan n c).regB o j = s.regB o j := rfl
@[simp] theorem State.setChan_agent (s : State) (n : Nat) (c : Channel) (n' : Nat) : (s.setChan n c).agent n' = s.agent n' := rfl
@[simp] theorem State.setChan_fn (s : State) (n : Nat) (c : Channel) (n' : Nat) : (s.setChan n c).fn n' = s.fn n' := rfl
@[simp] theorem State.setChan_port (s : State) (n : Nat) (c : Channel) (n' : Nat) : (s.setChan n c).port n' = s.port n' := rfl
@[simp] theorem State.setChan_holder (s : State) (n : Nat) (c : Channel) (n' : Nat) : (s.setChan n c).holder n' = s.holder n' := rfl
@[simp] theorem State.setChan_ist (s : State) (n : Nat) (c : Channel) (n' : Nat) : (s.setChan n c).ist n' = s.ist n' := rfl
@[simp] theorem State.setChan_box (s : State) (n : Nat) (c : Channel) (n' : Nat) : (s.setChan n c).box n' = s.box n' := rfl
@[simp] theorem State.setChan_buf (s : State) (n : Nat) (c : Channel) (n' : Nat) : (s.setChan n c).buf n' = s.buf n' := rfl
@[simp] theorem State.setChan_flow (s : State) (n : Nat) (c : Channel) (n' : Nat) : (s.setChan n c).flow n' = s.flow n' := rfl
@[simp] theorem State.setChan_ctx (s : State) (n : Nat) (c : Channel) (n' : Ctx) : (s.setChan n c).ctx n' = s.ctx n' := rfl
@[simp] theorem State.setChan_session (s : State) (n : Nat) (c : Channel) (n' : Nat) : (s.setChan n c).session n' = s.session n' := rfl
@[simp] theorem State.setChan_queue (s : State) (n : Nat) (c : Channel) (n' : Nat) : (s.setChan n c).queue n' = s.queue n' := rfl
@[simp] theorem State.setChan_now (s : State) (n : Nat) (c : Channel)  : (s.setChan n c).now  = s.now  := rfl
@[simp] theorem State.setChan_cyc (s : State) (n : Nat) (c : Channel)  : (s.setChan n c).cyc  = s.cyc  := rfl
@[simp] theorem State.setOutcome_pending (s : State) (seq o : Nat) : (s.setOutcome seq o).pending = s.pending := rfl
@[simp] theorem State.setOutcome_out (s : State) (seq o : Nat) : (s.setOutcome seq o).out = s.out := rfl
@[simp] theorem State.setOutcome_free (s : State) (seq o : Nat) : (s.setOutcome seq o).free = s.free := rfl
@[simp] theorem State.setOutcome_regs (s : State) (seq o : Nat) : (s.setOutcome seq o).regs = s.regs := rfl
@[simp] theorem State.setOutcome_fresh (s : State) (seq o : Nat) : (s.setOutcome seq o).fresh = s.fresh := rfl
@[simp] theorem State.setOutcome_freshAt (s : State) (seq o : Nat) : (s.setOutcome seq o).freshAt = s.freshAt := rfl
@[simp] theorem State.setOutcome_time (s : State) (seq o : Nat) : (s.setOutcome seq o).time = s.time := rfl
@[simp] theorem State.setOutcome_agents (s : State) (seq o : Nat) : (s.setOutcome seq o).agents = s.agents := rfl
@[simp] theorem State.setOutcome_fns (s : State) (seq o : Nat) : (s.setOutcome seq o).fns = s.fns := rfl
@[simp] theorem State.setOutcome_ports (s : State) (seq o : Nat) : (s.setOutcome seq o).ports = s.ports := rfl
@[simp] theorem State.setOutcome_sem (s : State) (seq o : Nat) : (s.setOutcome seq o).sem = s.sem := rfl
@[simp] theorem State.setOutcome_mbx (s : State) (seq o : Nat) : (s.setOutcome seq o).mbx = s.mbx := rfl
@[simp] theorem State.setOutcome_ic (s : State) (seq o : Nat) : (s.setOutcome seq o).ic = s.ic := rfl
@[simp] theorem State.setOutcome_tmr (s : State) (seq o : Nat) : (s.setOutcome seq o).tmr = s.tmr := rfl
@[simp] theorem State.setOutcome_qs (s : State) (seq o : Nat) : (s.setOutcome seq o).qs = s.qs := rfl
@[simp] theorem State.setOutcome_sess (s : State) (seq o : Nat) : (s.setOutcome seq o).sess = s.sess := rfl
@[simp] theorem State.setOutcome_span (s : State) (seq o : Nat) : (s.setOutcome seq o).span = s.span := rfl
@[simp] theorem State.setOutcome_flows (s : State) (seq o : Nat) : (s.setOutcome seq o).flows = s.flows := rfl
@[simp] theorem State.setOutcome_tgTime (s : State) (seq o : Nat) : (s.setOutcome seq o).tgTime = s.tgTime := rfl
@[simp] theorem State.setOutcome_tgFree (s : State) (seq o : Nat) : (s.setOutcome seq o).tgFree = s.tgFree := rfl
@[simp] theorem State.setOutcome_tgRefill (s : State) (seq o : Nat) : (s.setOutcome seq o).tgRefill = s.tgRefill := rfl
@[simp] theorem State.setOutcome_bpm (s : State) (seq o : Nat) : (s.setOutcome seq o).bpm = s.bpm := rfl
@[simp] theorem State.setOutcome_dma (s : State) (seq o : Nat) : (s.setOutcome seq o).dma = s.dma := rfl
@[simp] theorem State.setOutcome_mem (s : State) (seq o : Nat) : (s.setOutcome seq o).mem = s.mem := rfl
@[simp] theorem State.setOutcome_mc (s : State) (seq o : Nat) : (s.setOutcome seq o).mc = s.mc := rfl
@[simp] theorem State.setOutcome_conc (s : State) (seq o : Nat) : (s.setOutcome seq o).conc = s.conc := rfl
@[simp] theorem State.setOutcome_sec (s : State) (seq o : Nat) : (s.setOutcome seq o).sec = s.sec := rfl
@[simp] theorem State.setOutcome_clk (s : State) (seq o : Nat) : (s.setOutcome seq o).clk = s.clk := rfl
@[simp] theorem State.setOutcome_board (s : State) (seq o : Nat) : (s.setOutcome seq o).board = s.board := rfl
@[simp] theorem State.setOutcome_reg (s : State) (seq o : Nat) (o' : Nat) : (s.setOutcome seq o).reg o' = s.reg o' := rfl
@[simp] theorem State.setOutcome_regF (s : State) (seq o : Nat) (o' l n : Nat) : (s.setOutcome seq o).regF o' l n = s.regF o' l n := rfl
@[simp] theorem State.setOutcome_regB (s : State) (seq o : Nat) (o' j : Nat) : (s.setOutcome seq o).regB o' j = s.regB o' j := rfl
@[simp] theorem State.setOutcome_agent (s : State) (seq o : Nat) (n : Nat) : (s.setOutcome seq o).agent n = s.agent n := rfl
@[simp] theorem State.setOutcome_fn (s : State) (seq o : Nat) (n : Nat) : (s.setOutcome seq o).fn n = s.fn n := rfl
@[simp] theorem State.setOutcome_port (s : State) (seq o : Nat) (n : Nat) : (s.setOutcome seq o).port n = s.port n := rfl
@[simp] theorem State.setOutcome_holder (s : State) (seq o : Nat) (n : Nat) : (s.setOutcome seq o).holder n = s.holder n := rfl
@[simp] theorem State.setOutcome_ist (s : State) (seq o : Nat) (n : Nat) : (s.setOutcome seq o).ist n = s.ist n := rfl
@[simp] theorem State.setOutcome_box (s : State) (seq o : Nat) (n : Nat) : (s.setOutcome seq o).box n = s.box n := rfl
@[simp] theorem State.setOutcome_buf (s : State) (seq o : Nat) (n : Nat) : (s.setOutcome seq o).buf n = s.buf n := rfl
@[simp] theorem State.setOutcome_flow (s : State) (seq o : Nat) (n : Nat) : (s.setOutcome seq o).flow n = s.flow n := rfl
@[simp] theorem State.setOutcome_ctx (s : State) (seq o : Nat) (n : Ctx) : (s.setOutcome seq o).ctx n = s.ctx n := rfl
@[simp] theorem State.setOutcome_session (s : State) (seq o : Nat) (n : Nat) : (s.setOutcome seq o).session n = s.session n := rfl
@[simp] theorem State.setOutcome_queue (s : State) (seq o : Nat) (n : Nat) : (s.setOutcome seq o).queue n = s.queue n := rfl
@[simp] theorem State.setOutcome_chan (s : State) (seq o : Nat) (n : Nat) : (s.setOutcome seq o).chan n = s.chan n := rfl
@[simp] theorem State.setOutcome_now (s : State) (seq o : Nat)  : (s.setOutcome seq o).now  = s.now  := rfl
@[simp] theorem State.setOutcome_cyc (s : State) (seq o : Nat)  : (s.setOutcome seq o).cyc  = s.cyc  := rfl
@[simp] theorem State.setRegF_pending (s : State) (off lo len v : Nat) : (s.setRegF off lo len v).pending = s.pending := rfl
@[simp] theorem State.setRegF_out (s : State) (off lo len v : Nat) : (s.setRegF off lo len v).out = s.out := rfl
@[simp] theorem State.setRegF_free (s : State) (off lo len v : Nat) : (s.setRegF off lo len v).free = s.free := rfl
@[simp] theorem State.setRegF_fresh (s : State) (off lo len v : Nat) : (s.setRegF off lo len v).fresh = s.fresh := rfl
@[simp] theorem State.setRegF_freshAt (s : State) (off lo len v : Nat) : (s.setRegF off lo len v).freshAt = s.freshAt := rfl
@[simp] theorem State.setRegF_time (s : State) (off lo len v : Nat) : (s.setRegF off lo len v).time = s.time := rfl
@[simp] theorem State.setRegF_agents (s : State) (off lo len v : Nat) : (s.setRegF off lo len v).agents = s.agents := rfl
@[simp] theorem State.setRegF_fns (s : State) (off lo len v : Nat) : (s.setRegF off lo len v).fns = s.fns := rfl
@[simp] theorem State.setRegF_ports (s : State) (off lo len v : Nat) : (s.setRegF off lo len v).ports = s.ports := rfl
@[simp] theorem State.setRegF_sem (s : State) (off lo len v : Nat) : (s.setRegF off lo len v).sem = s.sem := rfl
@[simp] theorem State.setRegF_mbx (s : State) (off lo len v : Nat) : (s.setRegF off lo len v).mbx = s.mbx := rfl
@[simp] theorem State.setRegF_ic (s : State) (off lo len v : Nat) : (s.setRegF off lo len v).ic = s.ic := rfl
@[simp] theorem State.setRegF_tmr (s : State) (off lo len v : Nat) : (s.setRegF off lo len v).tmr = s.tmr := rfl
@[simp] theorem State.setRegF_fc (s : State) (off lo len v : Nat) : (s.setRegF off lo len v).fc = s.fc := rfl
@[simp] theorem State.setRegF_qs (s : State) (off lo len v : Nat) : (s.setRegF off lo len v).qs = s.qs := rfl
@[simp] theorem State.setRegF_sess (s : State) (off lo len v : Nat) : (s.setRegF off lo len v).sess = s.sess := rfl
@[simp] theorem State.setRegF_span (s : State) (off lo len v : Nat) : (s.setRegF off lo len v).span = s.span := rfl
@[simp] theorem State.setRegF_flows (s : State) (off lo len v : Nat) : (s.setRegF off lo len v).flows = s.flows := rfl
@[simp] theorem State.setRegF_tgTime (s : State) (off lo len v : Nat) : (s.setRegF off lo len v).tgTime = s.tgTime := rfl
@[simp] theorem State.setRegF_tgFree (s : State) (off lo len v : Nat) : (s.setRegF off lo len v).tgFree = s.tgFree := rfl
@[simp] theorem State.setRegF_tgRefill (s : State) (off lo len v : Nat) : (s.setRegF off lo len v).tgRefill = s.tgRefill := rfl
@[simp] theorem State.setRegF_bpm (s : State) (off lo len v : Nat) : (s.setRegF off lo len v).bpm = s.bpm := rfl
@[simp] theorem State.setRegF_dma (s : State) (off lo len v : Nat) : (s.setRegF off lo len v).dma = s.dma := rfl
@[simp] theorem State.setRegF_mem (s : State) (off lo len v : Nat) : (s.setRegF off lo len v).mem = s.mem := rfl
@[simp] theorem State.setRegF_mc (s : State) (off lo len v : Nat) : (s.setRegF off lo len v).mc = s.mc := rfl
@[simp] theorem State.setRegF_conc (s : State) (off lo len v : Nat) : (s.setRegF off lo len v).conc = s.conc := rfl
@[simp] theorem State.setRegF_sec (s : State) (off lo len v : Nat) : (s.setRegF off lo len v).sec = s.sec := rfl
@[simp] theorem State.setRegF_clk (s : State) (off lo len v : Nat) : (s.setRegF off lo len v).clk = s.clk := rfl
@[simp] theorem State.setRegF_board (s : State) (off lo len v : Nat) : (s.setRegF off lo len v).board = s.board := rfl
@[simp] theorem State.setRegF_agent (s : State) (off lo len v : Nat) (n : Nat) : (s.setRegF off lo len v).agent n = s.agent n := rfl
@[simp] theorem State.setRegF_fn (s : State) (off lo len v : Nat) (n : Nat) : (s.setRegF off lo len v).fn n = s.fn n := rfl
@[simp] theorem State.setRegF_port (s : State) (off lo len v : Nat) (n : Nat) : (s.setRegF off lo len v).port n = s.port n := rfl
@[simp] theorem State.setRegF_holder (s : State) (off lo len v : Nat) (n : Nat) : (s.setRegF off lo len v).holder n = s.holder n := rfl
@[simp] theorem State.setRegF_ist (s : State) (off lo len v : Nat) (n : Nat) : (s.setRegF off lo len v).ist n = s.ist n := rfl
@[simp] theorem State.setRegF_box (s : State) (off lo len v : Nat) (n : Nat) : (s.setRegF off lo len v).box n = s.box n := rfl
@[simp] theorem State.setRegF_buf (s : State) (off lo len v : Nat) (n : Nat) : (s.setRegF off lo len v).buf n = s.buf n := rfl
@[simp] theorem State.setRegF_flow (s : State) (off lo len v : Nat) (n : Nat) : (s.setRegF off lo len v).flow n = s.flow n := rfl
@[simp] theorem State.setRegF_ctx (s : State) (off lo len v : Nat) (n : Ctx) : (s.setRegF off lo len v).ctx n = s.ctx n := rfl
@[simp] theorem State.setRegF_session (s : State) (off lo len v : Nat) (n : Nat) : (s.setRegF off lo len v).session n = s.session n := rfl
@[simp] theorem State.setRegF_queue (s : State) (off lo len v : Nat) (n : Nat) : (s.setRegF off lo len v).queue n = s.queue n := rfl
@[simp] theorem State.setRegF_chan (s : State) (off lo len v : Nat) (n : Nat) : (s.setRegF off lo len v).chan n = s.chan n := rfl
@[simp] theorem State.setRegF_now (s : State) (off lo len v : Nat)  : (s.setRegF off lo len v).now  = s.now  := rfl
@[simp] theorem State.setRegF_cyc (s : State) (off lo len v : Nat)  : (s.setRegF off lo len v).cyc  = s.cyc  := rfl
@[simp] theorem State.setRegB_pending (s : State) (off i : Nat) (b : Bool) : (s.setRegB off i b).pending = s.pending := rfl
@[simp] theorem State.setRegB_out (s : State) (off i : Nat) (b : Bool) : (s.setRegB off i b).out = s.out := rfl
@[simp] theorem State.setRegB_free (s : State) (off i : Nat) (b : Bool) : (s.setRegB off i b).free = s.free := rfl
@[simp] theorem State.setRegB_fresh (s : State) (off i : Nat) (b : Bool) : (s.setRegB off i b).fresh = s.fresh := rfl
@[simp] theorem State.setRegB_freshAt (s : State) (off i : Nat) (b : Bool) : (s.setRegB off i b).freshAt = s.freshAt := rfl
@[simp] theorem State.setRegB_time (s : State) (off i : Nat) (b : Bool) : (s.setRegB off i b).time = s.time := rfl
@[simp] theorem State.setRegB_agents (s : State) (off i : Nat) (b : Bool) : (s.setRegB off i b).agents = s.agents := rfl
@[simp] theorem State.setRegB_fns (s : State) (off i : Nat) (b : Bool) : (s.setRegB off i b).fns = s.fns := rfl
@[simp] theorem State.setRegB_ports (s : State) (off i : Nat) (b : Bool) : (s.setRegB off i b).ports = s.ports := rfl
@[simp] theorem State.setRegB_sem (s : State) (off i : Nat) (b : Bool) : (s.setRegB off i b).sem = s.sem := rfl
@[simp] theorem State.setRegB_mbx (s : State) (off i : Nat) (b : Bool) : (s.setRegB off i b).mbx = s.mbx := rfl
@[simp] theorem State.setRegB_ic (s : State) (off i : Nat) (b : Bool) : (s.setRegB off i b).ic = s.ic := rfl
@[simp] theorem State.setRegB_tmr (s : State) (off i : Nat) (b : Bool) : (s.setRegB off i b).tmr = s.tmr := rfl
@[simp] theorem State.setRegB_fc (s : State) (off i : Nat) (b : Bool) : (s.setRegB off i b).fc = s.fc := rfl
@[simp] theorem State.setRegB_qs (s : State) (off i : Nat) (b : Bool) : (s.setRegB off i b).qs = s.qs := rfl
@[simp] theorem State.setRegB_sess (s : State) (off i : Nat) (b : Bool) : (s.setRegB off i b).sess = s.sess := rfl
@[simp] theorem State.setRegB_span (s : State) (off i : Nat) (b : Bool) : (s.setRegB off i b).span = s.span := rfl
@[simp] theorem State.setRegB_flows (s : State) (off i : Nat) (b : Bool) : (s.setRegB off i b).flows = s.flows := rfl
@[simp] theorem State.setRegB_tgTime (s : State) (off i : Nat) (b : Bool) : (s.setRegB off i b).tgTime = s.tgTime := rfl
@[simp] theorem State.setRegB_tgFree (s : State) (off i : Nat) (b : Bool) : (s.setRegB off i b).tgFree = s.tgFree := rfl
@[simp] theorem State.setRegB_tgRefill (s : State) (off i : Nat) (b : Bool) : (s.setRegB off i b).tgRefill = s.tgRefill := rfl
@[simp] theorem State.setRegB_bpm (s : State) (off i : Nat) (b : Bool) : (s.setRegB off i b).bpm = s.bpm := rfl
@[simp] theorem State.setRegB_dma (s : State) (off i : Nat) (b : Bool) : (s.setRegB off i b).dma = s.dma := rfl
@[simp] theorem State.setRegB_mem (s : State) (off i : Nat) (b : Bool) : (s.setRegB off i b).mem = s.mem := rfl
@[simp] theorem State.setRegB_mc (s : State) (off i : Nat) (b : Bool) : (s.setRegB off i b).mc = s.mc := rfl
@[simp] theorem State.setRegB_conc (s : State) (off i : Nat) (b : Bool) : (s.setRegB off i b).conc = s.conc := rfl
@[simp] theorem State.setRegB_sec (s : State) (off i : Nat) (b : Bool) : (s.setRegB off i b).sec = s.sec := rfl
@[simp] theorem State.setRegB_clk (s : State) (off i : Nat) (b : Bool) : (s.setRegB off i b).clk = s.clk := rfl
@[simp] theorem State.setRegB_board (s : State) (off i : Nat) (b : Bool) : (s.setRegB off i b).board = s.board := rfl
@[simp] theorem State.setRegB_agent (s : State) (off i : Nat) (b : Bool) (n : Nat) : (s.setRegB off i b).agent n = s.agent n := rfl
@[simp] theorem State.setRegB_fn (s : State) (off i : Nat) (b : Bool) (n : Nat) : (s.setRegB off i b).fn n = s.fn n := rfl
@[simp] theorem State.setRegB_port (s : State) (off i : Nat) (b : Bool) (n : Nat) : (s.setRegB off i b).port n = s.port n := rfl
@[simp] theorem State.setRegB_holder (s : State) (off i : Nat) (b : Bool) (n : Nat) : (s.setRegB off i b).holder n = s.holder n := rfl
@[simp] theorem State.setRegB_ist (s : State) (off i : Nat) (b : Bool) (n : Nat) : (s.setRegB off i b).ist n = s.ist n := rfl
@[simp] theorem State.setRegB_box (s : State) (off i : Nat) (b : Bool) (n : Nat) : (s.setRegB off i b).box n = s.box n := rfl
@[simp] theorem State.setRegB_buf (s : State) (off i : Nat) (b : Bool) (n : Nat) : (s.setRegB off i b).buf n = s.buf n := rfl
@[simp] theorem State.setRegB_flow (s : State) (off i : Nat) (b : Bool) (n : Nat) : (s.setRegB off i b).flow n = s.flow n := rfl
@[simp] theorem State.setRegB_ctx (s : State) (off i : Nat) (b : Bool) (n : Ctx) : (s.setRegB off i b).ctx n = s.ctx n := rfl
@[simp] theorem State.setRegB_session (s : State) (off i : Nat) (b : Bool) (n : Nat) : (s.setRegB off i b).session n = s.session n := rfl
@[simp] theorem State.setRegB_queue (s : State) (off i : Nat) (b : Bool) (n : Nat) : (s.setRegB off i b).queue n = s.queue n := rfl
@[simp] theorem State.setRegB_chan (s : State) (off i : Nat) (b : Bool) (n : Nat) : (s.setRegB off i b).chan n = s.chan n := rfl
@[simp] theorem State.setRegB_now (s : State) (off i : Nat) (b : Bool)  : (s.setRegB off i b).now  = s.now  := rfl
@[simp] theorem State.setRegB_cyc (s : State) (off i : Nat) (b : Bool)  : (s.setRegB off i b).cyc  = s.cyc  := rfl
@[simp] theorem State.bump_pending (s : State) (off lo len : Nat) : (s.bump off lo len).pending = s.pending := rfl
@[simp] theorem State.bump_out (s : State) (off lo len : Nat) : (s.bump off lo len).out = s.out := rfl
@[simp] theorem State.bump_free (s : State) (off lo len : Nat) : (s.bump off lo len).free = s.free := rfl
@[simp] theorem State.bump_fresh (s : State) (off lo len : Nat) : (s.bump off lo len).fresh = s.fresh := rfl
@[simp] theorem State.bump_freshAt (s : State) (off lo len : Nat) : (s.bump off lo len).freshAt = s.freshAt := rfl
@[simp] theorem State.bump_time (s : State) (off lo len : Nat) : (s.bump off lo len).time = s.time := rfl
@[simp] theorem State.bump_agents (s : State) (off lo len : Nat) : (s.bump off lo len).agents = s.agents := rfl
@[simp] theorem State.bump_fns (s : State) (off lo len : Nat) : (s.bump off lo len).fns = s.fns := rfl
@[simp] theorem State.bump_ports (s : State) (off lo len : Nat) : (s.bump off lo len).ports = s.ports := rfl
@[simp] theorem State.bump_sem (s : State) (off lo len : Nat) : (s.bump off lo len).sem = s.sem := rfl
@[simp] theorem State.bump_mbx (s : State) (off lo len : Nat) : (s.bump off lo len).mbx = s.mbx := rfl
@[simp] theorem State.bump_ic (s : State) (off lo len : Nat) : (s.bump off lo len).ic = s.ic := rfl
@[simp] theorem State.bump_tmr (s : State) (off lo len : Nat) : (s.bump off lo len).tmr = s.tmr := rfl
@[simp] theorem State.bump_fc (s : State) (off lo len : Nat) : (s.bump off lo len).fc = s.fc := rfl
@[simp] theorem State.bump_qs (s : State) (off lo len : Nat) : (s.bump off lo len).qs = s.qs := rfl
@[simp] theorem State.bump_sess (s : State) (off lo len : Nat) : (s.bump off lo len).sess = s.sess := rfl
@[simp] theorem State.bump_span (s : State) (off lo len : Nat) : (s.bump off lo len).span = s.span := rfl
@[simp] theorem State.bump_flows (s : State) (off lo len : Nat) : (s.bump off lo len).flows = s.flows := rfl
@[simp] theorem State.bump_tgTime (s : State) (off lo len : Nat) : (s.bump off lo len).tgTime = s.tgTime := rfl
@[simp] theorem State.bump_tgFree (s : State) (off lo len : Nat) : (s.bump off lo len).tgFree = s.tgFree := rfl
@[simp] theorem State.bump_tgRefill (s : State) (off lo len : Nat) : (s.bump off lo len).tgRefill = s.tgRefill := rfl
@[simp] theorem State.bump_bpm (s : State) (off lo len : Nat) : (s.bump off lo len).bpm = s.bpm := rfl
@[simp] theorem State.bump_dma (s : State) (off lo len : Nat) : (s.bump off lo len).dma = s.dma := rfl
@[simp] theorem State.bump_mem (s : State) (off lo len : Nat) : (s.bump off lo len).mem = s.mem := rfl
@[simp] theorem State.bump_mc (s : State) (off lo len : Nat) : (s.bump off lo len).mc = s.mc := rfl
@[simp] theorem State.bump_conc (s : State) (off lo len : Nat) : (s.bump off lo len).conc = s.conc := rfl
@[simp] theorem State.bump_sec (s : State) (off lo len : Nat) : (s.bump off lo len).sec = s.sec := rfl
@[simp] theorem State.bump_clk (s : State) (off lo len : Nat) : (s.bump off lo len).clk = s.clk := rfl
@[simp] theorem State.bump_board (s : State) (off lo len : Nat) : (s.bump off lo len).board = s.board := rfl
@[simp] theorem State.bump_agent (s : State) (off lo len : Nat) (n : Nat) : (s.bump off lo len).agent n = s.agent n := rfl
@[simp] theorem State.bump_fn (s : State) (off lo len : Nat) (n : Nat) : (s.bump off lo len).fn n = s.fn n := rfl
@[simp] theorem State.bump_port (s : State) (off lo len : Nat) (n : Nat) : (s.bump off lo len).port n = s.port n := rfl
@[simp] theorem State.bump_holder (s : State) (off lo len : Nat) (n : Nat) : (s.bump off lo len).holder n = s.holder n := rfl
@[simp] theorem State.bump_ist (s : State) (off lo len : Nat) (n : Nat) : (s.bump off lo len).ist n = s.ist n := rfl
@[simp] theorem State.bump_box (s : State) (off lo len : Nat) (n : Nat) : (s.bump off lo len).box n = s.box n := rfl
@[simp] theorem State.bump_buf (s : State) (off lo len : Nat) (n : Nat) : (s.bump off lo len).buf n = s.buf n := rfl
@[simp] theorem State.bump_flow (s : State) (off lo len : Nat) (n : Nat) : (s.bump off lo len).flow n = s.flow n := rfl
@[simp] theorem State.bump_ctx (s : State) (off lo len : Nat) (n : Ctx) : (s.bump off lo len).ctx n = s.ctx n := rfl
@[simp] theorem State.bump_session (s : State) (off lo len : Nat) (n : Nat) : (s.bump off lo len).session n = s.session n := rfl
@[simp] theorem State.bump_queue (s : State) (off lo len : Nat) (n : Nat) : (s.bump off lo len).queue n = s.queue n := rfl
@[simp] theorem State.bump_chan (s : State) (off lo len : Nat) (n : Nat) : (s.bump off lo len).chan n = s.chan n := rfl
@[simp] theorem State.bump_now (s : State) (off lo len : Nat)  : (s.bump off lo len).now  = s.now  := rfl
@[simp] theorem State.bump_cyc (s : State) (off lo len : Nat)  : (s.bump off lo len).cyc  = s.cyc  := rfl
@[simp] theorem State.bumpSat_pending (s : State) (off lo len k : Nat) : (s.bumpSat off lo len k).pending = s.pending := rfl
@[simp] theorem State.bumpSat_out (s : State) (off lo len k : Nat) : (s.bumpSat off lo len k).out = s.out := rfl
@[simp] theorem State.bumpSat_free (s : State) (off lo len k : Nat) : (s.bumpSat off lo len k).free = s.free := rfl
@[simp] theorem State.bumpSat_fresh (s : State) (off lo len k : Nat) : (s.bumpSat off lo len k).fresh = s.fresh := rfl
@[simp] theorem State.bumpSat_freshAt (s : State) (off lo len k : Nat) : (s.bumpSat off lo len k).freshAt = s.freshAt := rfl
@[simp] theorem State.bumpSat_time (s : State) (off lo len k : Nat) : (s.bumpSat off lo len k).time = s.time := rfl
@[simp] theorem State.bumpSat_agents (s : State) (off lo len k : Nat) : (s.bumpSat off lo len k).agents = s.agents := rfl
@[simp] theorem State.bumpSat_fns (s : State) (off lo len k : Nat) : (s.bumpSat off lo len k).fns = s.fns := rfl
@[simp] theorem State.bumpSat_ports (s : State) (off lo len k : Nat) : (s.bumpSat off lo len k).ports = s.ports := rfl
@[simp] theorem State.bumpSat_sem (s : State) (off lo len k : Nat) : (s.bumpSat off lo len k).sem = s.sem := rfl
@[simp] theorem State.bumpSat_mbx (s : State) (off lo len k : Nat) : (s.bumpSat off lo len k).mbx = s.mbx := rfl
@[simp] theorem State.bumpSat_ic (s : State) (off lo len k : Nat) : (s.bumpSat off lo len k).ic = s.ic := rfl
@[simp] theorem State.bumpSat_tmr (s : State) (off lo len k : Nat) : (s.bumpSat off lo len k).tmr = s.tmr := rfl
@[simp] theorem State.bumpSat_fc (s : State) (off lo len k : Nat) : (s.bumpSat off lo len k).fc = s.fc := rfl
@[simp] theorem State.bumpSat_qs (s : State) (off lo len k : Nat) : (s.bumpSat off lo len k).qs = s.qs := rfl
@[simp] theorem State.bumpSat_sess (s : State) (off lo len k : Nat) : (s.bumpSat off lo len k).sess = s.sess := rfl
@[simp] theorem State.bumpSat_span (s : State) (off lo len k : Nat) : (s.bumpSat off lo len k).span = s.span := rfl
@[simp] theorem State.bumpSat_flows (s : State) (off lo len k : Nat) : (s.bumpSat off lo len k).flows = s.flows := rfl
@[simp] theorem State.bumpSat_tgTime (s : State) (off lo len k : Nat) : (s.bumpSat off lo len k).tgTime = s.tgTime := rfl
@[simp] theorem State.bumpSat_tgFree (s : State) (off lo len k : Nat) : (s.bumpSat off lo len k).tgFree = s.tgFree := rfl
@[simp] theorem State.bumpSat_tgRefill (s : State) (off lo len k : Nat) : (s.bumpSat off lo len k).tgRefill = s.tgRefill := rfl
@[simp] theorem State.bumpSat_bpm (s : State) (off lo len k : Nat) : (s.bumpSat off lo len k).bpm = s.bpm := rfl
@[simp] theorem State.bumpSat_dma (s : State) (off lo len k : Nat) : (s.bumpSat off lo len k).dma = s.dma := rfl
@[simp] theorem State.bumpSat_mem (s : State) (off lo len k : Nat) : (s.bumpSat off lo len k).mem = s.mem := rfl
@[simp] theorem State.bumpSat_mc (s : State) (off lo len k : Nat) : (s.bumpSat off lo len k).mc = s.mc := rfl
@[simp] theorem State.bumpSat_conc (s : State) (off lo len k : Nat) : (s.bumpSat off lo len k).conc = s.conc := rfl
@[simp] theorem State.bumpSat_sec (s : State) (off lo len k : Nat) : (s.bumpSat off lo len k).sec = s.sec := rfl
@[simp] theorem State.bumpSat_clk (s : State) (off lo len k : Nat) : (s.bumpSat off lo len k).clk = s.clk := rfl
@[simp] theorem State.bumpSat_board (s : State) (off lo len k : Nat) : (s.bumpSat off lo len k).board = s.board := rfl
@[simp] theorem State.bumpSat_agent (s : State) (off lo len k : Nat) (n : Nat) : (s.bumpSat off lo len k).agent n = s.agent n := rfl
@[simp] theorem State.bumpSat_fn (s : State) (off lo len k : Nat) (n : Nat) : (s.bumpSat off lo len k).fn n = s.fn n := rfl
@[simp] theorem State.bumpSat_port (s : State) (off lo len k : Nat) (n : Nat) : (s.bumpSat off lo len k).port n = s.port n := rfl
@[simp] theorem State.bumpSat_holder (s : State) (off lo len k : Nat) (n : Nat) : (s.bumpSat off lo len k).holder n = s.holder n := rfl
@[simp] theorem State.bumpSat_ist (s : State) (off lo len k : Nat) (n : Nat) : (s.bumpSat off lo len k).ist n = s.ist n := rfl
@[simp] theorem State.bumpSat_box (s : State) (off lo len k : Nat) (n : Nat) : (s.bumpSat off lo len k).box n = s.box n := rfl
@[simp] theorem State.bumpSat_buf (s : State) (off lo len k : Nat) (n : Nat) : (s.bumpSat off lo len k).buf n = s.buf n := rfl
@[simp] theorem State.bumpSat_flow (s : State) (off lo len k : Nat) (n : Nat) : (s.bumpSat off lo len k).flow n = s.flow n := rfl
@[simp] theorem State.bumpSat_ctx (s : State) (off lo len k : Nat) (n : Ctx) : (s.bumpSat off lo len k).ctx n = s.ctx n := rfl
@[simp] theorem State.bumpSat_session (s : State) (off lo len k : Nat) (n : Nat) : (s.bumpSat off lo len k).session n = s.session n := rfl
@[simp] theorem State.bumpSat_queue (s : State) (off lo len k : Nat) (n : Nat) : (s.bumpSat off lo len k).queue n = s.queue n := rfl
@[simp] theorem State.bumpSat_chan (s : State) (off lo len k : Nat) (n : Nat) : (s.bumpSat off lo len k).chan n = s.chan n := rfl
@[simp] theorem State.bumpSat_now (s : State) (off lo len k : Nat)  : (s.bumpSat off lo len k).now  = s.now  := rfl
@[simp] theorem State.bumpSat_cyc (s : State) (off lo len k : Nat)  : (s.bumpSat off lo len k).cyc  = s.cyc  := rfl
@[simp] theorem State.bumpPair_pending (s : State) (lo hi k : Nat) : (s.bumpPair lo hi k).pending = s.pending := rfl
@[simp] theorem State.bumpPair_out (s : State) (lo hi k : Nat) : (s.bumpPair lo hi k).out = s.out := rfl
@[simp] theorem State.bumpPair_free (s : State) (lo hi k : Nat) : (s.bumpPair lo hi k).free = s.free := rfl
@[simp] theorem State.bumpPair_fresh (s : State) (lo hi k : Nat) : (s.bumpPair lo hi k).fresh = s.fresh := rfl
@[simp] theorem State.bumpPair_freshAt (s : State) (lo hi k : Nat) : (s.bumpPair lo hi k).freshAt = s.freshAt := rfl
@[simp] theorem State.bumpPair_time (s : State) (lo hi k : Nat) : (s.bumpPair lo hi k).time = s.time := rfl
@[simp] theorem State.bumpPair_agents (s : State) (lo hi k : Nat) : (s.bumpPair lo hi k).agents = s.agents := rfl
@[simp] theorem State.bumpPair_fns (s : State) (lo hi k : Nat) : (s.bumpPair lo hi k).fns = s.fns := rfl
@[simp] theorem State.bumpPair_ports (s : State) (lo hi k : Nat) : (s.bumpPair lo hi k).ports = s.ports := rfl
@[simp] theorem State.bumpPair_sem (s : State) (lo hi k : Nat) : (s.bumpPair lo hi k).sem = s.sem := rfl
@[simp] theorem State.bumpPair_mbx (s : State) (lo hi k : Nat) : (s.bumpPair lo hi k).mbx = s.mbx := rfl
@[simp] theorem State.bumpPair_ic (s : State) (lo hi k : Nat) : (s.bumpPair lo hi k).ic = s.ic := rfl
@[simp] theorem State.bumpPair_tmr (s : State) (lo hi k : Nat) : (s.bumpPair lo hi k).tmr = s.tmr := rfl
@[simp] theorem State.bumpPair_fc (s : State) (lo hi k : Nat) : (s.bumpPair lo hi k).fc = s.fc := rfl
@[simp] theorem State.bumpPair_qs (s : State) (lo hi k : Nat) : (s.bumpPair lo hi k).qs = s.qs := rfl
@[simp] theorem State.bumpPair_sess (s : State) (lo hi k : Nat) : (s.bumpPair lo hi k).sess = s.sess := rfl
@[simp] theorem State.bumpPair_span (s : State) (lo hi k : Nat) : (s.bumpPair lo hi k).span = s.span := rfl
@[simp] theorem State.bumpPair_flows (s : State) (lo hi k : Nat) : (s.bumpPair lo hi k).flows = s.flows := rfl
@[simp] theorem State.bumpPair_tgTime (s : State) (lo hi k : Nat) : (s.bumpPair lo hi k).tgTime = s.tgTime := rfl
@[simp] theorem State.bumpPair_tgFree (s : State) (lo hi k : Nat) : (s.bumpPair lo hi k).tgFree = s.tgFree := rfl
@[simp] theorem State.bumpPair_tgRefill (s : State) (lo hi k : Nat) : (s.bumpPair lo hi k).tgRefill = s.tgRefill := rfl
@[simp] theorem State.bumpPair_bpm (s : State) (lo hi k : Nat) : (s.bumpPair lo hi k).bpm = s.bpm := rfl
@[simp] theorem State.bumpPair_dma (s : State) (lo hi k : Nat) : (s.bumpPair lo hi k).dma = s.dma := rfl
@[simp] theorem State.bumpPair_mem (s : State) (lo hi k : Nat) : (s.bumpPair lo hi k).mem = s.mem := rfl
@[simp] theorem State.bumpPair_mc (s : State) (lo hi k : Nat) : (s.bumpPair lo hi k).mc = s.mc := rfl
@[simp] theorem State.bumpPair_conc (s : State) (lo hi k : Nat) : (s.bumpPair lo hi k).conc = s.conc := rfl
@[simp] theorem State.bumpPair_sec (s : State) (lo hi k : Nat) : (s.bumpPair lo hi k).sec = s.sec := rfl
@[simp] theorem State.bumpPair_clk (s : State) (lo hi k : Nat) : (s.bumpPair lo hi k).clk = s.clk := rfl
@[simp] theorem State.bumpPair_board (s : State) (lo hi k : Nat) : (s.bumpPair lo hi k).board = s.board := rfl
@[simp] theorem State.bumpPair_agent (s : State) (lo hi k : Nat) (n : Nat) : (s.bumpPair lo hi k).agent n = s.agent n := rfl
@[simp] theorem State.bumpPair_fn (s : State) (lo hi k : Nat) (n : Nat) : (s.bumpPair lo hi k).fn n = s.fn n := rfl
@[simp] theorem State.bumpPair_port (s : State) (lo hi k : Nat) (n : Nat) : (s.bumpPair lo hi k).port n = s.port n := rfl
@[simp] theorem State.bumpPair_holder (s : State) (lo hi k : Nat) (n : Nat) : (s.bumpPair lo hi k).holder n = s.holder n := rfl
@[simp] theorem State.bumpPair_ist (s : State) (lo hi k : Nat) (n : Nat) : (s.bumpPair lo hi k).ist n = s.ist n := rfl
@[simp] theorem State.bumpPair_box (s : State) (lo hi k : Nat) (n : Nat) : (s.bumpPair lo hi k).box n = s.box n := rfl
@[simp] theorem State.bumpPair_buf (s : State) (lo hi k : Nat) (n : Nat) : (s.bumpPair lo hi k).buf n = s.buf n := rfl
@[simp] theorem State.bumpPair_flow (s : State) (lo hi k : Nat) (n : Nat) : (s.bumpPair lo hi k).flow n = s.flow n := rfl
@[simp] theorem State.bumpPair_ctx (s : State) (lo hi k : Nat) (n : Ctx) : (s.bumpPair lo hi k).ctx n = s.ctx n := rfl
@[simp] theorem State.bumpPair_session (s : State) (lo hi k : Nat) (n : Nat) : (s.bumpPair lo hi k).session n = s.session n := rfl
@[simp] theorem State.bumpPair_queue (s : State) (lo hi k : Nat) (n : Nat) : (s.bumpPair lo hi k).queue n = s.queue n := rfl
@[simp] theorem State.bumpPair_chan (s : State) (lo hi k : Nat) (n : Nat) : (s.bumpPair lo hi k).chan n = s.chan n := rfl
@[simp] theorem State.bumpPair_now (s : State) (lo hi k : Nat)  : (s.bumpPair lo hi k).now  = s.now  := rfl
@[simp] theorem State.bumpPair_cyc (s : State) (lo hi k : Nat)  : (s.bumpPair lo hi k).cyc  = s.cyc  := rfl

-- What a setter does to its own part --------------------------------------------------------------------

theorem State.setReg_reg_same (s : State) (off : Nat) (v : Word) : (s.setReg off v).reg off = v :=
  Tbl.get_put_same ..

theorem State.setReg_reg_ne (s : State) (off o : Nat) (v : Word) (h : o ≠ off) : (s.setReg off v).reg o = s.reg o :=
  Tbl.get_put_ne _ _ _ _ _ h

theorem State.setReg_reg (s : State) (off o : Nat) (v : Word) :
    (s.setReg off v).reg o = if o = off then v else s.reg o := by
  by_cases h : o = off
  · subst h; simp [State.setReg_reg_same]
  · simp [h, State.setReg_reg_ne]

@[simp] theorem State.setHolder_holder_same (s : State) (n c : Nat) : (s.setHolder n c).holder n = c :=
  Tbl.get_put_same ..

theorem State.setHolder_holder_ne (s : State) (n m c : Nat) (h : m ≠ n) : (s.setHolder n c).holder m = s.holder m :=
  Tbl.get_put_ne _ _ _ _ _ h

@[simp] theorem State.setIst_ist_same (s : State) (n : Nat) (e : IstEntry) : (s.setIst n e).ist n = e :=
  Tbl.get_put_same ..

theorem State.setIst_ist_ne (s : State) (n m : Nat) (e : IstEntry) (h : m ≠ n) : (s.setIst n e).ist m = s.ist m :=
  Tbl.get_put_ne _ _ _ _ _ h

@[simp] theorem State.setBox_box_same (s : State) (n : Nat) (b : Mbx) : (s.setBox n b).box n = b :=
  Tbl.get_put_same ..

theorem State.setBox_box_ne (s : State) (n m : Nat) (b : Mbx) (h : m ≠ n) : (s.setBox n b).box m = s.box m :=
  Tbl.get_put_ne _ _ _ _ _ h

@[simp] theorem State.setSession_session_same (s : State) (n : Nat) (x : Session) : (s.setSession n x).session n = x :=
  Tbl.get_put_same ..

theorem State.setSession_session_ne (s : State) (n m : Nat) (x : Session) (h : m ≠ n) :
    (s.setSession n x).session m = s.session m :=
  Tbl.get_put_ne _ _ _ _ _ h

@[simp] theorem State.setFn_fn_same (s : State) (n : Nat) (x : FnSt) : (s.setFn n x).fn n = x := Tbl.get_put_same ..

theorem State.setFn_fn_ne (s : State) (n m : Nat) (x : FnSt) (h : m ≠ n) : (s.setFn n x).fn m = s.fn m :=
  Tbl.get_put_ne _ _ _ _ _ h

@[simp] theorem State.setPort_port_same (s : State) (n : Nat) (x : PortSt) : (s.setPort n x).port n = x :=
  Tbl.get_put_same ..

theorem State.setPort_port_ne (s : State) (n m : Nat) (x : PortSt) (h : m ≠ n) : (s.setPort n x).port m = s.port m :=
  Tbl.get_put_ne _ _ _ _ _ h

@[simp] theorem State.setQueue_queue_same (s : State) (n : Nat) (x : Queue) : (s.setQueue n x).queue n = x :=
  Tbl.get_put_same ..

theorem State.setQueue_queue_ne (s : State) (n m : Nat) (x : Queue) (h : m ≠ n) : (s.setQueue n x).queue m = s.queue m :=
  Tbl.get_put_ne _ _ _ _ _ h

@[simp] theorem State.setChan_chan_same (s : State) (n : Nat) (x : Channel) : (s.setChan n x).chan n = x :=
  Tbl.get_put_same ..

theorem State.setChan_chan_ne (s : State) (n m : Nat) (x : Channel) (h : m ≠ n) : (s.setChan n x).chan m = s.chan m :=
  Tbl.get_put_ne _ _ _ _ _ h

@[simp] theorem State.setFlow_flow_same (s : State) (n : Nat) (x : Flow) : (s.setFlow n x).flow n = x :=
  Tbl.get_put_same ..

theorem State.setFlow_flow_ne (s : State) (n m : Nat) (x : Flow) (h : m ≠ n) : (s.setFlow n x).flow m = s.flow m :=
  Tbl.get_put_ne _ _ _ _ _ h

end Sys2Proof.Machine
end

