-- ==== Sys2Proof/Laws/Shared.lean ====
section
/-! SUPPORT. One lemma per shared operation that says everything it can do: raising a source, a mailbox channel's
detector, the record of a fault. -/

namespace Sys2Proof.Machine

/-- Raising a source changes the interrupt controller and nothing else. -/
theorem State.raise_frame (s : State) (n : Nat) : s.raise n = { s with ic := (s.raise n).ic } := by
  unfold State.raise State.setIst
  split
  · rfl
  · split
    · rfl
    · dsimp only; split
      · split <;> rfl
      · rfl

/-- What a raise does depends on device time and the interrupt controller only. -/
theorem State.raise_ic_congr (s t : State) (n : Nat) (hi : t.ic = s.ic) (ht : t.time = s.time) :
    (t.raise n).ic = (s.raise n).ic := by
  unfold State.raise State.setIst State.ist State.cyc
  rw [hi, ht]
  split
  · exact hi
  · split
    · rfl
    · dsimp only; split
      · split <;> rfl
      · rfl

/-- While the interrupt controller is not gated, raising a source below 1023 sets its PEND (R311). -/
theorem State.raise_pend (s : State) (n : Nat) (hn : n < 1023) (hg : s.ic.gated = false) :
    ((s.raise n).ist n).pend = true := by
  unfold State.raise
  rw [if_neg (by omega), hg]
  simp only [Bool.false_eq_true, if_false]
  split
  · split <;> simp
  · simp

/-- Raising a source leaves every other source's entry alone. -/
theorem State.raise_ist_ne (s : State) (n m : Nat) (h : m ≠ n) : (s.raise n).ist m = s.ist m := by
  unfold State.raise
  split
  · rfl
  · split
    · rfl
    · dsimp only; split
      · split <;> exact State.setIst_ist_ne _ _ _ _ h
      · exact State.setIst_ist_ne _ _ _ _ h

/-- The detector's bookkeeping changes the window and FIRED of channel `n` only. -/
theorem State.settleBox_box (s : State) (n : Nat) (r : Bool) (b : Mbx) :
    ∃ w f, (s.settleBox n r b).box n = { b with window := w, fired := f } := by
  unfold State.settleBox; simp only [State.setBox_box_same]
  repeat' split
  all_goals first | exact ⟨_, b.fired, rfl⟩ | exact ⟨_, _, rfl⟩

theorem State.settleBox_box_ne (s : State) (n m : Nat) (r : Bool) (b : Mbx) (h : m ≠ n) :
    (s.settleBox n r b).box m = s.box m := by
  unfold State.settleBox; exact State.setBox_box_ne _ _ _ _ h

theorem State.settleBox_frame (s : State) (n : Nat) (r : Bool) (b : Mbx) :
    s.settleBox n r b = { s with mbx := (s.settleBox n r b).mbx } := rfl

/-- A write by the holder, or a grant, changes no semaphore but the one named (R50, R51). -/
theorem State.acquire_holder_ne (s : State) (n m c : Nat) (h : m ≠ n) : ((s.acquire n c).2).holder m = s.holder m := by
  unfold State.acquire; split
  · exact State.setHolder_holder_ne _ _ _ _ h
  · rfl

-- Faults ------------------------------------------------------------------------------------------------------

/-- `t` is `s` but for the registers and the bits just set in them, the interrupt controller and the fault history: all
that a record changes. -/
def State.recordedFrom (s t : State) : Prop :=
  t = { s with regs := t.regs, fresh := t.fresh, freshAt := t.freshAt, ic := t.ic, fc := { s.fc with hist := t.fc.hist } }

theorem State.recordedFrom_refl (s : State) : s.recordedFrom s := rfl

theorem State.recordedFrom_trans {s t u : State} (h1 : s.recordedFrom t) (h2 : t.recordedFrom u) : s.recordedFrom u := by
  unfold State.recordedFrom at *
  rw [h1] at h2
  exact h2

theorem State.setReg_recordedFrom (s : State) (off : Nat) (v : Word) : s.recordedFrom (s.setReg off v) := rfl

/-- The same after a change of the history. -/
theorem State.withHist_recordedFrom {s t : State} (h : s.recordedFrom t) (x : Tbl Hist) :
    s.recordedFrom { t with fc := { t.fc with hist := x } } := by
  unfold State.recordedFrom at *; rw [h]

theorem State.raise_recordedFrom (s : State) (n : Nat) : s.recordedFrom (s.raise n) := by
  unfold State.recordedFrom; rw [State.raise_frame]

theorem State.wakePort_recordedFrom (s : State) (n : Nat) : s.recordedFrom (s.wakePort n) := by
  unfold State.wakePort; split
  · exact State.setReg_recordedFrom _ _ _
  · exact State.recordedFrom_refl s

theorem State.countFault_recordedFrom (s : State) (u c : Nat) : s.recordedFrom (s.countFault u c) := rfl

theorem State.setRegs_recordedFrom {s t : State} (h : s.recordedFrom t) (off : Nat) (v : Word) : s.recordedFrom (t.setReg off v) :=
  State.recordedFrom_trans h (State.setReg_recordedFrom t off v)

theorem State.mark_recordedFrom {s t : State} (h : s.recordedFrom t) (key : Nat) (b : Word) : s.recordedFrom (t.mark key b) :=
  State.recordedFrom_trans h rfl

theorem State.wakeAll_recordedFrom {s t : State} (h : s.recordedFrom t) (ns : List Nat) :
    s.recordedFrom (ns.foldl (fun st n => if st.regB (Reg.wakeCtrl n) 28 then st.wakePort n else st) t) := by
  induction ns generalizing t with
  | nil => exact h
  | cons n r ih =>
    refine ih ?_
    dsimp only
    split
    · exact State.recordedFrom_trans h (State.wakePort_recordedFrom t n)
    · exact h

theorem State.recordFresh_recordedFrom (r : Report) (s : State) (esc : Bool) (cls : Nat) (row : FaultRow) :
    s.recordedFrom (State.record.fresh r s esc cls row).st := by
  unfold State.record.fresh
  dsimp only
  refine State.recordedFrom_trans ?_ (State.raise_recordedFrom _ _)
  have h1 := State.setRegs_recordedFrom (State.setReg_recordedFrom s Reg.headSeq
    (loW (if (s.reg Reg.headSeq).toNat ≥ 2 ^ 32 - 1 then 1 else (s.reg Reg.headSeq).toNat + 1))) (Reg.lastSeq cls)
    (loW (if (s.reg Reg.headSeq).toNat ≥ 2 ^ 32 - 1 then 1 else (s.reg Reg.headSeq).toNat + 1))
  have h2 : ∀ u : State, s.recordedFrom u → s.recordedFrom (if esc then u.bumpSat Reg.escalations 0 32 1 else u) := by
    intro u hu
    split
    · exact State.setRegs_recordedFrom hu _ _
    · exact hu
  have h3 := h2 _ h1
  have h4 : ∀ u : State, s.recordedFrom u → s.recordedFrom (if cls ≥ 1 then
      [0, 1].foldl (fun st n => if st.regB (Reg.wakeCtrl n) 28 then st.wakePort n else st) u else u) := by
    intro u hu
    split
    · exact State.wakeAll_recordedFrom hu _
    · exact hu
  refine h4 _ ?_
  split
  · unfold State.syncUnacked State.setRegF
    exact State.setRegs_recordedFrom (State.setRegs_recordedFrom (State.withHist_recordedFrom h3 _) _ _) _ _
  · unfold State.raiseB State.raiseF State.bumpSat State.setRegF
    exact State.mark_recordedFrom (State.setRegs_recordedFrom (State.setRegs_recordedFrom h3 _ _) _ _) _ _

/-- The record of a fault changes the registers, the interrupt controller and the history, and nothing else (R377). -/
theorem State.record_recordedFrom (s : State) (r : Report) : s.recordedFrom (s.record r).st := by
  unfold State.record
  dsimp only
  have hc := State.countFault_recordedFrom s r.unit (if s.escalates r then r.cls + 1 else r.cls)
  split
  · split
    · exact State.recordedFrom_trans (State.withHist_recordedFrom hc _) (State.raise_recordedFrom _ 964)
    · exact State.recordedFrom_trans hc (State.recordFresh_recordedFrom ..)
  · exact State.recordedFrom_trans hc (State.recordFresh_recordedFrom ..)

/-- A host-protocol event is a record (R47). -/
theorem State.protoEvent_recordedFrom (s : State) (fid detail : Nat) : s.recordedFrom (s.protoEvent fid detail) := by
  unfold State.protoEvent
  exact State.recordedFrom_trans (State.setReg_recordedFrom _ _ _) (State.record_recordedFrom _ _)

theorem State.protoEventA_recordedFrom (s : State) (a : Agent) (detail : Nat) : s.recordedFrom (s.protoEventA a detail) := by
  cases a with
  | fn f => exact State.protoEvent_recordedFrom s f.val detail
  | cp k => exact State.record_recordedFrom s _

end Sys2Proof.Machine
end

