-- ==== Sys2Proof/Laws/Packets.lean ====
section
/-! SUPPORT. How packets end: a completion and the end of a packet touch the queues, the contexts, buffer pins and what is
undefined of the outputs of pictures only, and a fault below FATAL is a record. -/

namespace Sys2Proof.Machine

/-- `t` is `s` but for the queues' state, the contexts, the buffers and what memory has undefined: all that the end of a
packet changes. -/
def State.packetFrom (s t : State) : Prop :=
  t = { s with qs := t.qs, conc := t.conc, bpm := t.bpm, mem := { s.mem with undef := t.mem.undef } }

theorem State.packetFrom_refl (s : State) : s.packetFrom s := rfl

theorem State.packetFrom_trans {s t u : State} (h1 : s.packetFrom t) (h2 : t.packetFrom u) : s.packetFrom u := by
  unfold State.packetFrom at *
  rw [h1] at h2
  exact h2

theorem State.unpin_packetFrom (s : State) (k : Nat) : s.packetFrom (s.unpin k) := rfl

theorem State.unpinAll_packetFrom (ks : List Nat) : ∀ s : State, s.packetFrom (s.unpinAll ks) := by
  induction ks with
  | nil => exact State.packetFrom_refl
  | cons k r ih => intro s; exact State.packetFrom_trans (State.unpin_packetFrom s k) (ih (s.unpin k))

theorem State.yieldTurn_packetFrom (s : State) (c : Ctx) : s.packetFrom (s.yieldTurn c) := rfl

theorem State.freeCtx_packetFrom (s : State) (c : Ctx) : s.packetFrom (s.freeCtx c) := by
  have h : s.packetFrom ((s.unpinAll (s.ctx c).pins).setCtx c Context.reset) :=
    State.packetFrom_trans (State.unpinAll_packetFrom (s.ctx c).pins s) rfl
  unfold State.freeCtx
  extract_lets t
  split
  · exact State.packetFrom_trans h (State.yieldTurn_packetFrom t c)
  · exact h

theorem State.setPackets_packetFrom (s : State) (ps : List Packet) : s.packetFrom (s.setPackets ps) := rfl

theorem State.dismissed_packetFrom (s : State) (id : Nat) : s.packetFrom { s with mem := s.mem.dismissed id } := rfl

theorem State.endPacket_packetFrom (s : State) (id : Nat) : s.packetFrom (s.endPacket id) := by
  unfold State.endPacket
  extract_lets s1 s2
  have h1 : s.packetFrom s1 := by
    dsimp only [s1]; split
    · exact State.freeCtx_packetFrom s _
    · exact State.packetFrom_refl s
  have h2 : s.packetFrom s2 := State.packetFrom_trans h1 (State.setPackets_packetFrom _ _)
  split
  · split
    · exact State.packetFrom_trans h2 (State.dismissed_packetFrom s2 id)
    · exact h2
  · exact h2

theorem State.produce_packetFrom (s : State) (p : Packet) (cq st re t : Nat) (vs : List Word) :
    s.packetFrom (s.produce p cq st re t vs) := by
  unfold State.produce State.produceAt
  split
  · rfl
  · exact State.packetFrom_refl s

theorem State.complete_packetFrom (s : State) (p : Packet) (st : Nat) (vs : List Word) : s.packetFrom (s.complete p st vs) :=
  State.packetFrom_trans (State.produce_packetFrom ..) (State.endPacket_packetFrom _ _)

theorem State.refuse_packetFrom (s : State) (p : Packet) (r : Refuse) : s.packetFrom (s.refuse p r) :=
  State.packetFrom_trans (State.produce_packetFrom ..) (State.endPacket_packetFrom _ _)

theorem State.abort_packetFrom (s : State) (p : Packet) : s.packetFrom (s.abort p) :=
  State.packetFrom_trans (State.produce_packetFrom ..) (State.endPacket_packetFrom _ _)

/-- The packet that ends is gone. -/
theorem State.endPacket_gone (s : State) (id : Nat) : (s.endPacket id).packet? id = none := by
  unfold State.endPacket
  extract_lets s1 s2
  have h : s2.packet? id = none := by simp [s2, State.packet?, State.setPackets, List.find?_eq_none]
  split
  · split <;> exact h
  · exact h

/-- A report below FATAL is a record (R370). -/
theorem State.report_below_fatal (s : State) (r : Report) (h : s.classOf r < 2) : s.report r = s.record r := by
  unfold State.classOf at h
  unfold State.report
  dsimp only
  rw [if_neg (by omega)]

end Sys2Proof.Machine
end

