-- ==== Sys2Proof/WellFormed.lean ====
section
/-! DEFINITION. The commands that the hardware's shape allows: counts of sensors and regulators, sizes of a
batch, ranges of a memory request (R10, R76, R138, R147, R228, R282, R405, R407). -/

namespace Sys2Proof

/-- No value of the list occurs twice. -/
def nodupNat : List Nat → Bool
  | [] => true
  | x :: r => !r.contains x && nodupNat r

/-- A request moves 1 to 1,024 bytes of one stripe inside device memory (R282). -/
def MemReq.wf (r : MemReq) : Bool :=
  decide (1 ≤ r.bytes) && decide (r.addr / 1024 = (r.addr + r.bytes - 1) / 1024) &&
    decide (r.addr + r.bytes ≤ 0xC00000000)

/-- The operands have the shape the spec gives them. -/
def Instr.wf : Instr → Bool
  | .fetchBatch _ es => decide (es.length ≤ 8) && es.all fun e => e.length == 16
  | .doorbellSubmission _ _ _ _ => true
  | .thermalSample tj => tj.length == 24
  | .pmbusPoll r => r.length == 4
  | .pmbAlert r => r.length == 4
  | .memoryArbiterDecision _ ws _ => ws.all MemReq.wf && nodupNat (ws.map fun r => r.id.val)
  | .crossing _ cs _ => decide (cs.length ≤ 6) && cs.all fun c => decide (c.heads.length ≤ c.units.length)
  | .decBurst _ us => decide (us.length ≤ 4096)
  | .apertureWrite _ _ d => decide (1 ≤ d.length) && decide (d.length ≤ 512)
  | .apertureRead _ _ n => decide (1 ≤ n) && decide (n ≤ 4096)
  | .segmentReturn _ d => decide (1 ≤ d.length) && decide (d.length ≤ 4096)
  | .vfEnableSet _ n => decide (1 ≤ n.val)
  | .combiningFlush _ st => decide (st < 50331648)
  | _ => true

end Sys2Proof
end

