-- ==== Sys2Proof/Tests/Slice0.lean ====
section
/-! SUPPORT. The author's own tests: ill-formed commands are refused, the hypotheses of each statement are met by a
concrete state, and one step gives what the spec's tables and rules give. -/

namespace Sys2Proof.Tests

open Sys2Proof.Machine

-- One theorem at a time: each kernel evaluation has a thread and its stack.
set_option Elab.async false

-- Helper states -----------------------------------------------------------------------------------------

abbrev pf0 : Fid := 0
abbrev pf1 : Fid := 64
abbrev vf5 : Fid := 5

/-- Out of POR with both ports up, eight VFs each, device READY. -/
def on : State :=
  { State.reset with
    regs := Tbl.put (Tbl.put (Tbl.put [] Reg.devStatus 0x80000000) (Reg.portStatus 0) 0) (Reg.portStatus 1) 0,
    time := { State.reset.time with runs := true },
    clk := { State.reset.clk with alive := true },
    ports := [(0, { PortSt.reset with perst := false, crs := false, numVfs := 8 }),
              (1, { PortSt.reset with perst := false, crs := false, numVfs := 8 })] }

/-- What a command sent out. -/
def outOf : Res → List Emit
  | .next t => t.out
  | _ => []

/-- A register after a command. -/
def regOf (r : Res) (off : Nat) : Word :=
  match r with
  | .next t => t.reg off
  | _ => 0

/-- The holder of a semaphore after a command; 255 when there is no next state. -/
def holderOf (r : Res) (n : Nat) : Nat :=
  match r with
  | .next t => t.holder n
  | _ => 255

/-- A mailbox channel after a command. -/
def boxOf (r : Res) (n : Nat) : Mbx :=
  match r with
  | .next t => t.box n
  | _ => Mbx.reset 1

/-- A property of the next state. -/
def after (r : Res) (p : State → Bool) : Bool :=
  match r with
  | .next t => p t
  | _ => false

/-- MBX[9]: the port 0 PF at end 0, the port 1 PF at end 1 with five words outbound. -/
def box9 : State :=
  on.setBox 9 { Mbx.reset 9 with e0 := { MbxEnd.reset with owner := 1 },
                                 e1 := { MbxEnd.reset with owner := 0x41, queue := [11, 12, 13, 14, 15] } }

/-- The same with end 1's queue full. -/
def full9 : State :=
  on.setBox 9 { Mbx.reset 9 with e0 := { MbxEnd.reset with owner := 1 },
                                 e1 := { MbxEnd.reset with owner := 0x41, queue := List.replicate 8 3 } }

/-- Both ends wait with words both ways since tick 0, at tick 100,000. -/
def cross9 : State :=
  { on.setBox 9 { Mbx.reset 9 with window := some 0,
                                   e0 := { MbxEnd.reset with owner := 1, waitEmpty := true, queue := [1] },
                                   e1 := { MbxEnd.reset with owner := 0x41, waitEmpty := true, queue := [2] } }
    with time := { on.time with now := 100000 } }


-- Ill-formed commands ------------------------------------------------------------------------------------------

/-- A read of 64 bytes, one across a stripe's end, one of nothing and one past device memory (R282). -/
def reqAt (addr bytes : Nat) : MemReq := { id := 47, addr, bytes, write := false, holds := [] }

/-- One term for each check of `Instr.wf`, which refuses it; beside it a well-formed one. -/
theorem test_wfRefuses :
    Instr.wf (.fetchBatch 0 (List.replicate 9 (List.replicate 16 0))) = false ∧ Instr.wf (.fetchBatch 0 [[0]]) = false ∧
      Instr.wf (.thermalSample (List.replicate 23 0)) = false ∧ Instr.wf (.pmbusPoll [none, none, none]) = false ∧
      Instr.wf (.pmbAlert (List.replicate 5 none)) = false ∧
      Instr.wf (.memoryArbiterDecision 0 [reqAt 1000 64] .clean) = false ∧
      Instr.wf (.memoryArbiterDecision 0 [reqAt 0 0] .clean) = false ∧
      Instr.wf (.memoryArbiterDecision 0 [reqAt 0xC00000000 64] .clean) = false ∧
      Instr.wf (.memoryArbiterDecision 0 [reqAt 0 64, reqAt 64 64] .clean) = false ∧
      Instr.wf (.crossing 0 (List.replicate 7 { heads := [], units := [], recon := Samples.none }) none) = false ∧
      Instr.wf (.crossing 0 [{ heads := [.other], units := [], recon := Samples.none }] none) = false ∧
      Instr.wf (.decBurst { pair := 0, slot := 2 } (List.replicate 4097 [])) = false ∧
      Instr.wf (.apertureWrite 0 0 []) = false ∧ Instr.wf (.apertureWrite 0 0 (List.replicate 513 0)) = false ∧
      Instr.wf (.apertureRead 0 0 0) = false ∧ Instr.wf (.apertureRead 0 0 4097) = false ∧
      Instr.wf (.segmentReturn 0 []) = false ∧ Instr.wf (.segmentReturn 0 (List.replicate 4097 0)) = false ∧
      Instr.wf (.vfEnableSet 0 0) = false ∧ Instr.wf (.combiningFlush 0 50331648) = false := by decide +kernel

theorem test_wfAccepts :
    Instr.wf (.fetchBatch 0 [List.replicate 16 0]) ∧ Instr.wf (.thermalSample (List.replicate 24 0)) ∧
      Instr.wf (.pmbusPoll [none, none, none, none]) ∧ Instr.wf (.memoryArbiterDecision 0 [reqAt 0 64] .clean) ∧
      Instr.wf (.apertureRead 0 0 4096) ∧ Instr.wf (.vfEnableSet 0 1) ∧ Instr.wf (.combiningFlush 0 50331647) := by decide +kernel

-- Statements ---------------------------------------------------------------------------------------------------

/-- Witnesses of `IdleStepCountsTime`: a quiet cycle, the end of a tick, and a latched message. -/
theorem test_idleStep :
    State.reset.pending = [] ∧ after (step State.reset) (fun t => t.time.cycle == 1) ∧
      after (step { State.reset with time := { State.reset.time with cycle := 11 } }) (fun t => t.time.raw == 1) ∧
      outOf (step { on with
        ic := { on.ic with latches := [⟨40, 0, some (0, 40), false⟩] },
        fns := [(0, { FnSt.reset with unmasked := [40] })] }) = [.msix 0 40] := by decide

/-- Witness of `SemLockRead`: a PF acquires free SEM[63], is told of itself on SEM[5], and a VF reads 0xFF. -/
theorem test_semLockRead :
    on.live (.fn pf0) ∧ on.holder 63 = 0 ∧ (on.setHolder 5 1).holder 5 ≠ 0 ∧ on.live (.fn vf5) ∧ (Agent.fn vf5).isVf ∧
      outOf (exec (.semAcquire 0 (.fn vf5) none) on) = [.readWord 0x030000 0xFF] ∧
      outOf (exec (.semAcquire 5 (.fn pf0) none) (on.setHolder 5 1)) = [.readWord 0x030014 1] := by decide

/-- Witness of the ties of `SemTiesAndReleases` and Table 03-10, row c + 60: with TIE_NEXT.PORT 0, port 0 is granted SEM[5] and port 1 reads 0x01. -/
theorem test_semTie :
    on.holder 5 = 0 ∧ on.live (.fn pf0) ∧ on.live (.fn pf1) ∧ on.live (.cp 1) ∧ portOf pf0.val ≠ portOf pf1.val ∧
      outOf (exec (.semAcquire 5 (.fn pf0) (some pf1)) on) = [.readWord 0x030014 0, .readWord 0x030014 1] ∧
      regOf (exec (.semAcquire 5 (.fn pf0) (some pf1)) on) Reg.tieNext = 1 ∧
      outOf (exec (.semAcquire 5 (.cp 1) (some pf1)) on) = [.readWord 0x030014 0x41, .readWord 0x030014 0] := by decide

/-- Witness of the releases of `SemTiesAndReleases`: the port 1 PF writes 0x41, and the port 0 PF reads in that cycle; the port 0 PF's write is no
release. -/
theorem test_semRelease :
    (on.setHolder 0 0x41).live (.fn pf1) ∧ (Agent.fn pf1).code = 0x41 ∧
      holderOf (exec (.semRelease 0 (.fn pf1) ⟨0x41, none⟩) (on.setHolder 0 0x41)) 0 = 0 ∧
      holderOf (exec (.semRelease 0 (.fn pf1) ⟨0x1141, none⟩) (on.setHolder 0 0x41)) 0 = 0 ∧
      (on.setHolder 0 0x41).live (.fn pf0) ∧
      holderOf (exec (.semRelease 0 (.fn pf1) ⟨0x41, some (.fn pf0)⟩) (on.setHolder 0 0x41)) 0 = 1 ∧
      holderOf (exec (.semRelease 0 (.fn pf0) ⟨0x41, none⟩) (on.setHolder 0 0x41)) 0 = 0x41 := by decide

/-- `SemHolders` speaks of states a device has: reset and one with SEM[0] held. -/
theorem test_semHolders : (State.reset.sem = []) ∧ ((on.setHolder 0 0x41).holder 0 = 0x41 ∧ isPf (0x41 - 1)) := by decide

/-- Witnesses of `MbxAttachDetach`: both ends free, end 0 taken, refused, and a detach with 5 words outbound at the
other end (Table 03-16: DISCARDED 5). -/
theorem test_mbxAttachDetach :
    (on.box 9).holds? 1 = none ∧ (on.box 9).e0.owner = 0 ∧ (box9.box 9).holds? 0x41 = some true ∧
      (box9.box 9).holds? 1 = some false ∧ (box9.box 9).holds? 2 = none ∧
      (boxOf (exec (.detach 9 (.fn pf0)) box9) 9).e1.discarded = 5 ∧
      (boxOf (exec (.detach 9 (.fn pf0)) box9) 9).e1.abortCause = 2 ∧
      (boxOf (exec (.attach 9 (.fn pf0)) on) 9).e0.owner = 1 ∧
      (boxOf (exec (.attach 9 (.fn vf5)) box9) 9).attachFail = [6] ∧
      (on.box 0).holds? (Agent.cp 0).code = some true := by decide

/-- Witnesses of the words of `MbxWordsAndWaits`: end 1 of MBX[9] has 5 words outbound and end 0 none; a VF holds no end; a full queue. -/
theorem test_mbxWords :
    (box9.box 9).holds? 0x41 = some true ∧ ((box9.box 9).endOf false).queue = [] ∧
      ((box9.box 9).endOf true).queue.length = 5 ∧ (full9.box 9).e1.queue.length = 8 ∧
      (boxOf (exec (.mbxPush 9 (.fn pf1) 7) full9) 9).e1.overflow = true ∧
      (boxOf (exec (.mbxPop 9 (.fn pf1)) box9) 9).e1.underflow = true ∧
      outOf (exec (.mbxPop 9 (.fn pf0)) box9) = [.readWord 0x040324 11] ∧
      outOf (exec (.mbxPop 9 (.fn vf5)) box9) = [.readWord 0x040324 0] := by decide

/-- Witnesses of the waits of `MbxWordsAndWaits`: end 1 waits with 5 words, end 0 with none; a window that has run out (CROSS_TICKS is
100,000 at reset). -/
theorem test_mbxWaits :
    (box9.box 9).holds? 1 = some false ∧ (box9.box 9).holds? 0x41 = some true ∧
      (cross9.box 9).window = some 0 ∧ (cross9.box 9).armed = true ∧ cross9.crossTicks = 100000 ∧ cross9.now = 100000 ∧
      (boxOf (exec (.crossedWait 9) cross9) 9).e0.crossed = true ∧
      (boxOf (exec (.waitEmpty 9 (.fn pf1)) box9) 9).e1.waitEmpty = true ∧
      (boxOf (exec (.waitEmpty 9 (.fn pf0)) box9) 9).e0.waitEmpty = false := by decide

/-- Source 40 pending, enabled and unmasked, owned by the port 0 PF, TARGET[0] its vector 40, USEC of group 2 is 50:
the completion of Table 14-6, tick 0. -/
def irq40 : State :=
  ((on.setIst 40 { IstEntry.reset with
      en := true, mask := false, pend := true, owner := 1,
      targets := [{ IstTarget.reset with valid := true, vector := 40 }, IstTarget.reset, IstTarget.reset, IstTarget.reset] }).setReg
    (Reg.grpHoldoff 2) 50).setFn 0 { FnSt.reset with unmasked := [40], pmeEn := true }

/-- The same source with control processor 1 as its only target, its mask clear. -/
def irqCp : State :=
  (on.setReg (Reg.cpCtrl 1) 0).setIst 40 { IstEntry.reset with
      en := true, mask := false, pend := true, owner := 0x81,
      targets := [{ valid := true, isCp := true, fid := 0, vector := 1 }] }

/-- Witnesses of `IrqDelivery`: an MSI-X target, a control processor, no open target, nothing pending, and masked. -/
theorem test_irqDelivery :
    irq40.deliverable 40 ∧ irq40.groupHolds 2 = false ∧
      irq40.chosen (irq40.ist 40) = some (0, { IstTarget.reset with valid := true, vector := 40 }) ∧
      after (exec (.interruptDelivery 40) irq40) (fun t => t.cycle.out == [.msix 0 40]) ∧
      after (exec (.interruptDelivery 40) irq40) (fun t => (t.stopLatch 40).cycle.out == []) ∧
      after (exec (.interruptDelivery 40) irq40) (fun t => t.ic.wins.find 2 == some (0, 5000)) ∧
      irqCp.deliverable 40 ∧ (irqCp.chosen (irqCp.ist 40)).isSome ∧
      after (exec (.interruptDelivery 40) irqCp) (fun t => t.ic.reqs == [(40, 1)]) ∧
      (irq40.setFn 0 { irq40.fn 0 with d3hot := true }).chosen (irq40.ist 40) = none ∧
      outOf (exec (.interruptDelivery 40) (irq40.setFn 0 { irq40.fn 0 with d3hot := true })) = [.pme 0] ∧
      (on.ist 3).pend = false ∧ (on.ist 3).mask = true ∧ on.regB Reg.icCtrl 31 = false := by decide

/-- Source 40 held by a window [0, 5000) of group 2. -/
def held40 (now : Nat) : State :=
  { irq40 with ic := { irq40.ic with wins := [(2, (0, 5000))] }, time := { irq40.time with now := now } }

/-- Witnesses of `IrqHoldoff` (Table 14-6, ticks 1,200 and 5,000), and of an accepted and a dropped USEC write. -/
theorem test_irqHoldoff :
    on.ic.wins.find 2 = none ∧ (held40 1200).ic.wins.find 2 = some (0, 5000) ∧
      outOf (exec (.holdoffWindowEnd 2) (held40 1200)) = [] ∧
      after (exec (.interruptDelivery 40) (held40 1200)) (fun t => t.ic.latches == []) ∧
      after (exec (.holdoffWindowEnd 2) (held40 5000)) (fun t => t.cycle.out == [.msix 0 40]) ∧
      after (exec (.interruptDelivery 40) (held40 5000)) (fun t => t.cycle.out == [.msix 0 40]) ∧
      after (exec (.holdoffWindowEnd 2) (held40 5000)) (fun t => t.ic.wins.find 2 == some (5000, 10000)) ∧
      irq40.ownsInGroup 2 (Agent.fn pf0).code ∧
      regOf (exec (.grpHoldoffWrite 2 (.fn pf0) 7) irq40) (Reg.grpHoldoff 2) = 7 ∧
      regOf (exec (.grpHoldoffWrite 2 (.fn pf1) 7) irq40) (Reg.grpHoldoff 2) = 50 := by decide

/-- CP[1] has sources 40 and 700 requested. -/
def claims : State :=
  { irqCp with ic := { irqCp.ic with reqs := [(700, 1), (40, 1)] } }

/-- Witness of `ClaimAndComplete`: the lowest source is claimed, then completed. -/
theorem test_claimAndComplete :
    claims.clk.alive ∧ outOf (exec (.claim 1 ⟨.cp 1, []⟩) claims) = [.readWord (Reg.icClaim 1) 40] ∧
      claims.regB Reg.icCtrl 31 = false ∧
      after (exec (.claim 1 ⟨.cp 1, []⟩) claims) (fun t =>
        t.ic.reqs == [(700, 1)] && (t.ist 40).active && !(t.ist 40).pend && (t.ist 40).claimedBy == some 1 &&
        after (exec (.complete 1 (.cp 1) 40) t) (fun u => !(u.ist 40).active)) := by decide

/-- Witnesses of `PendingBits`: the owner sets and clears its source, a control processor any; a raise three cycles after a
latch is kept. -/
theorem test_pendingBits :
    irq40.live (.fn pf0) ∧ (irq40.ist 40).owner = (Agent.fn pf0).code ∧ irq40.live (.cp 2) ∧ irq40.ic.gated = false ∧
      after (exec (.srcPendClr (.fn pf0) 40) irq40) (fun t => !(t.ist 40).pend) ∧
      after (exec (.srcPendSet (.fn pf0) 40) (irq40.setIst 40 { irq40.ist 40 with pend := false })) (fun t => (t.ist 40).pend) ∧
      after (exec (.srcPendSet (.cp 2) 41) irq40) (fun t => (t.ist 41).pend) ∧
      after (exec (.srcPendSet (.cp 2) 40) { (irq40.setIst 40 { irq40.ist 40 with latched := some 0 }) with
        time := { irq40.time with cycle := 3 } }) (fun t => (t.ist 40).reRaised) := by decide

/-- Witnesses of `IrqOthers`: an empty set gives 1023; a clear of the same cycle withdraws source 40, so 700 is claimed;
others. -/
theorem test_irqOthers :
    claims.clk.alive ∧ outOf (exec (.claim 1 ⟨.cp 1, [.pendClr (.cp 1) 40]⟩) claims) = [.readWord (Reg.icClaim 1) 700] ∧
      outOf (exec (.claim 2 ⟨.cp 2, []⟩) claims) = [.readWord (Reg.icClaim 2) 1023] ∧
      regOf (exec (.claim 2 ⟨.cp 2, []⟩) claims) Reg.icCtrl = 1 ∧
      outOf (exec (.claim 1 ⟨.cp 1, []⟩) ((claims.setReg Reg.icCtrl 0x80000000).setReg (Reg.cpCtrl 1) 0x80000000)) =
        [.readWord (Reg.icClaim 1) 1023] ∧
      outOf (exec (.claim 1 ⟨.fn pf0, []⟩) claims) = [.readWord (Reg.icClaim 1) 1023] ∧
      claims.live (.fn pf0) ∧ claims.live (.fn vf5) ∧ (irq40.ist 40).owner ≠ (Agent.fn pf1).code ∧
      after (exec (.srcPendClr (.fn pf1) 40) irq40) (fun t => (t.ist 40).pend) ∧
      after (exec (.interruptDelivery 40) irqCp) (fun t =>
        t.ic.latches.map (·.src) == [40] && after (exec (.cpMaskWrite 1 (.cp 1) 0x80000000) t) (fun u => u.ic.reqs == [])) ∧
      regOf (exec (.cpMaskWrite 1 (.cp 1) 0x80000000) claims) (Reg.cpCtrl 1) = 0x80000000 := by decide

/-- Witnesses of `IrqSleep` (Table 14-6, ticks 6,400 and 30,000): the held source goes out at D3HOT_ENTRY and D0_RETURN; a
gated IC with a caught event; a vector unmasked with its message held; FORCE on a port in D3cold. -/
theorem test_irqSleep :
    (held40 1200).fnLive 0 ∧ (held40 1200).deliverable 40 ∧ (held40 1200).choosesFn 40 0 ∧
      outOf (exec (.d3hotEntry pf0) (held40 1200)) = [.msix 0 40, .configDone 0] ∧
      after (exec (.d0Return pf0) ((held40 1200).setFn 0 { irq40.fn 0 with d3hot := true })) (fun t =>
        t.out == [.configDone 0] && t.cycle.out == [.configDone 0, .msix 0 40]) ∧
      (held40 1200).clk.inDeep = false ∧
      after (exec .icWakeRestore { on with ic := { on.ic with gated := true, caught := [40] } }) (fun t => (t.ist 40).pend) ∧
      after (exec (.msiXMaskWrite pf0 (some 7) false)
        ((on.setFn 0 { FnSt.reset with pba := [7] }).setReg (Reg.portStatus 0) 2)) (fun t =>
          t.out == [.msix 0 7] && t.reg (Reg.portStatus 0) == 0) ∧
      on.ideDrops 0 .device = false ∧
      regOf (exec (.force 0 (.fn pf1) 0x40000000)
        ((on.setReg (Reg.wakeCtrl 0) 0x80000000).setPort 0 { on.port 0 with d3cold := true })) (Reg.wakeCtrl 0) =
        0xA0000000 ∧
      regOf (exec (.force 1 (.fn pf1) 0x88000005) on) (Reg.wakeCtrl 1) = 0x88000005 ∧ on.live (.fn pf1) := by decide

/-- Witnesses of `WindowSelects`: a PF reaches every select register; a VF reaches QT_SEL and not HIST_SEL. -/
theorem test_windowSelects :
    on.live (.fn pf1) ∧
      [Reg.qtSel, Reg.istSel, Reg.chSel, Reg.snapSel, Reg.statSel, Reg.flowSel, Reg.btSel, Reg.keySlotSel, Reg.histSel,
        Reg.sessSel].all (on.admits (.fn pf1)) ∧
      on.live (.fn vf5) ∧ on.admits (.fn vf5) Reg.qtSel ∧ on.admits (.fn vf5) Reg.histSel = false ∧
      after (exec (.qtSel (.fn pf1) 0x2003) on) (fun t => t.winWord 0x41 Reg.qtSel 5 == 0x100) ∧
      after (exec (.keySlotSel (.fn pf1) 9) on) (fun t => (t.window 0x41 Reg.keySlotSel).sel == 0xC0000009) := by decide

/-- The port 0 PF with queue 3 selected and a copy that binds it, enabled, as a completion queue of 16 entries. -/
def commitQ : State :=
  (on.setQueue 3 { Queue.reset with ty := 2, logSize := 4, base := 0x1000 }).setWindow 1 Reg.qtSel
    ⟨3, [0xC4000000, 0x1000, 0, 0, 0, 0x100, 0, 0]⟩

/-- Its copy of source 40 and of channel 7. -/
def commitI : State := on.setWindow 1 Reg.istSel ⟨40, [0x80000001, 0x80000028, 0, 0, 0]⟩
def commitC : State := on.setWindow 1 Reg.chSel ⟨7, [0x80600000, 0, 0, 0]⟩

/-- Witnesses of `CommitsAccepted`: an accepted queue, an unassigned source and a channel. -/
theorem test_commitsAccepted :
    isPf pf0.val ∧ commitQ.live (.fn pf0) ∧ commitQ.admits (.fn pf0) Reg.qtCommit ∧
      commitQ.window (Agent.fn pf0).code Reg.qtSel = ⟨at_ 0 3, [0xC4000000, 0x1000, 0, 0, 0, 0x100, 0, 0]⟩ ∧
      ((commitQ.queue 3).fromWords [0xC4000000, 0x1000, 0, 0, 0, 0x100, 0, 0]).en ∧
      (queueSetup.all fun x => x.of [0xC4000000, 0x1000, 0, 0, 0, 0x100, 0, 0] == x.of (commitQ.queueWords 3)) ∧
      after (exec (.qtCommit (.fn pf0) 1 none) commitQ) (fun t => (t.queue 3).en && (t.queue 3).phase) ∧
      commitI.admits (.fn pf0) Reg.istCommit ∧ commitC.admits (.fn pf0) Reg.chCommit ∧
      after (exec (.istCommit (.fn pf0) 1 none) commitI) (fun t => (t.ist 40).enabled && !(t.ist 40).mask) ∧
      after (exec (.chCommit (.fn pf0) 1 none) commitC) (fun t => (t.chan 7).assigned && (t.chan 7).prio == 3) := by decide

/-- The hypotheses of the queue's and the source's part are met together. -/
theorem test_commitsAllowed :
    Obligations.queueCopyOk 0 3 ((commitQ.queue 3).fromWords [0xC4000000, 0x1000, 0, 0, 0, 0x100, 0, 0])
        [0xC4000000, 0x1000, 0, 0, 0, 0x100, 0, 0] commitQ ∧
      Obligations.istCopyOk 0 (commitI.ist 40) ((commitI.ist 40).fromWords [0x80000001, 0x80000028, 0, 0, 0])
        [0x80000001, 0x80000028, 0, 0, 0] := by
  refine ⟨⟨by decide, by decide, by decide, by decide, by decide, by decide, by decide, by decide, by decide⟩, by decide, by decide, by decide, by decide, by decide⟩

/-- Witnesses of `TableCommits`: an accepted queue, an unassigned source and a channel; a queue of the other port. -/
theorem test_tableCommits :
    commitQ.admits (.fn pf0) Reg.qtCommit ∧ commitQ.admits (.fn pf0) Reg.istCommit ∧
      commitQ.admits (.fn pf0) Reg.chCommit ∧ commitQ.live (.fn pf0) ∧
      after (exec (.qtCommit (.fn pf0) 1 none) commitQ) (fun t => (t.queue 3).en && (t.queue 3).phase) ∧
      after (exec (.qtCommit (.fn pf0) 1 none) (commitQ.setQueue 3 { Queue.reset with ty := 1, fid := 64 }))
        (fun t => (t.agent 1).status.get Reg.qtStatus 0 == 0x90000000) ∧
      after (exec (.istCommit (.fn pf0) 1 none) (on.setWindow 1 Reg.istSel ⟨40, [0x80000001, 0x80000028, 0, 0, 0]⟩))
        (fun t => (t.ist 40).enabled && !(t.ist 40).mask) ∧
      after (exec (.chCommit (.fn pf0) 1 none) (on.setWindow 1 Reg.chSel ⟨7, [0x80600000, 0, 0, 0]⟩))
        (fun t => (t.chan 7).assigned && (t.chan 7).prio == 3) := by decide

/-- A frame that waits with a count of 5. -/
def starved : State :=
  (on.setHolder 0 1).setFrames [{ Frame.ofPacket { id := 1, q := 0, fid := 0, words := zeros 16, state := .frame, mark := 0, mute := false } 0 false with sess := 1, starve := 5 }]

/-- Witnesses of `RegisterWrites` and the example of R440 (SCHED_CFG): with SEM[0] held by the other port, STARVED
clears and STARVE_LIMIT stays; with it held, both act. -/
theorem test_registerWrites :
    on.live (.fn pf0) ∧ on.inView (.fn pf0) 0x300000 = false ∧ on.ready = true ∧ State.reset.ready = false ∧
      Obligations.rwsRegs.all (on.admits (.fn pf0)) ∧ on.holds0 (.fn pf0) = false ∧
      (on.setHolder 0 1).holds0 (.fn pf0) ∧
      regOf (exec (.registerWrite (.fn pf0) Reg.schedCfg 4 0x80000003) (on.setReg Reg.schedCfg 0x80000008)) Reg.schedCfg = 8 ∧
      regOf (exec (.registerWrite (.fn pf0) Reg.schedCfg 4 0x80000003)
        ((on.setReg Reg.schedCfg 0x80000008).setHolder 0 1)) Reg.schedCfg = 3 ∧
      starved.schedLimit = 8 ∧ regOf (exec (.registerWrite (.fn pf0) Reg.schedCfg 4 5) starved) Reg.schedCfg = 0x80000005 ∧
      regOf (exec (.registerWrite (.fn pf0) Reg.schedCfg 4 6) starved) Reg.schedCfg = 6 ∧
      regOf (exec (.registerWrite (.fn pf0) Reg.schedCfg 4 3) on) (Reg.protoEvents 0) = 1 ∧
      regOf (exec (.registerWrite (.fn pf0) Reg.schedCfg 4 8) on) (Reg.protoEvents 0) = 0 ∧
      regOf (exec (.minStep (.fn pf0) 2) (on.setHolder 0 1)) Reg.stepCtrl = 2 ∧
      regOf (exec (.registerWrite (.fn pf0) Reg.crossTicks 4 0xFF000007) (on.setHolder 0 1)) Reg.crossTicks = 7 := by decide

/-- Witnesses of the pairs of `RegisterReads`: TIME read across a carry by the port 1 PF; a base for the port 0 PF; ROUND_BASE. -/
theorem test_registerPairs :
    let s := { on with time := { on.time with now := 0x1FFFFFFFF } }
    s.live (.fn pf1) ∧ s.inView (.fn pf1) Reg.timeLo ∧ s.inView (.fn pf1) Reg.timeHi ∧
      (s.agent 0x41).latch.find Reg.timeLo = none ∧
      outOf (exec (.pairLoRead (.fn pf1) Reg.timeLo 4) s) = [.readWord Reg.timeLo 0xFFFFFFFF] ∧
      after (exec (.pairLoRead (.fn pf1) Reg.timeLo 4) s) (fun t =>
        outOf (exec (.pairLoRead (.fn pf1) Reg.timeHi 4) { t with out := [], time := { t.time with now := 0x200000000 } }) ==
          [.readWord Reg.timeHi 1]) ∧
      on.admits (.fn pf0) Reg.apwinLo ∧ on.admits (.fn pf0) Reg.apwinHi ∧ on.admits (.fn pf0) Reg.roundBaseHi ∧
      on.holds0 (.fn pf0) = false ∧
      after (exec (.registerWrite (.fn pf0) Reg.apwinLo 8 0x0000000312345678) on) (fun t => t.apwinBase pf0 == 0x312340000) ∧
      regOf (exec (.pairHiWrite (.fn pf0) Reg.roundBaseHi 1) on) (Reg.protoEvents 0) = 1 := by decide

/-- Witnesses of the RC reads of `RegisterReads`: STAGE_PEAK read by port 0, then by port 1 (the example of R6); an unassigned offset. -/
theorem test_rcReads :
    on.live (.fn pf0) ∧ on.inView (.fn pf0) Reg.stagePeak ∧ Reg.rcMask Reg.stagePeak ≠ 0 ∧
      outOf (exec (.rcRead (.fn pf0) Reg.stagePeak 4) (on.setReg Reg.stagePeak 5)) = [.readWord Reg.stagePeak 5] ∧
      after (exec (.rcRead (.fn pf0) Reg.stagePeak 4) (on.setReg Reg.stagePeak 5)) (fun t =>
        outOf (exec (.rcRead (.fn pf1) Reg.stagePeak 4) { t with out := [] }) == [.readWord Reg.stagePeak 0]) ∧
      on.inView (.fn pf0) 0x200000 = false ∧ outOf (exec (.rcRead (.fn pf0) 0x200000 4) on) = [.readWord 0x200000 0] ∧
      outOf (exec (.rcRead (.fn pf0) 2 2) on) = [.readWord 2 0] := by decide

/-- Witnesses of `Aperture`: the PF writes and reads back two bytes; a VF that owns nothing is refused. -/
theorem test_aperture :
    let s := { on with mem := { on.mem with epoch := 0 } }
    s.liveFor 0 .aperture ∧ s.asleep 0 = false ∧ s.inGf = false ∧ 2 ≤ s.poolsEnd ∧ s.ready = true ∧ s.mem.poisonIn 0 2 = false ∧ s.mem.claimed 0x10 = false ∧
      after (exec (.apertureWrite pf0 0x10 [1, 2]) s) (fun t =>
        outOf (exec (.apertureRead pf0 0x0F 4) t) == [.readBytes [0, 1, 2, 0]]) ∧
      isPf vf5.val = false ∧ s.rangeOwned vf5.val 0 1 = false ∧
      after (exec (.apertureRead vf5 0 1) s) (fun t => t.out == [.unsupportedRequest 5]) ∧
      State.reset.ready = false := by decide +kernel

/-- Timer 5 of the port 0 PF, periodic with 104,167 x 16 ticks, CMP 1,000; port 0's PTM enabled and selected. -/
def timer5 (now : Nat) : State :=
  { (((on.setReg (Reg.timerCtrl 5) (0xD0100000 ||| 104167)).setReg (Reg.timerCmp 5) 1000).setReg Reg.syncSrc 1).setPort 0
      { on.port 0 with ptmEn := true } with time := { on.time with now } }

/-- Witnesses of `TimersAndPtm`: the period of Table 14-8's example (1,666,672 ticks), a late one-shot, the four dialogues. -/
theorem test_timersAndPtm :
    after (exec (.timerArm 5 (.fn pf0) true 7) ((timer5 1000).setReg (Reg.timerCtrl 5) 0x10000000)) (fun t =>
        t.timerEn 5 == false && t.regB (Reg.timerCtrl 5) 31 && ({ t with time := { t.time with now := 1001 } } : State).timerEn 5) ∧
      after (exec (.timerArm 5 (.fn pf0) true 0x7000) (timer5 1000)) (fun t =>
        after (exec (.eventTimerExpiry 5) t) fun u => u.regB (Reg.timerCtrl 5) 29 && u.reg (Reg.timerCmp 5) == 0x7000) ∧
      (timer5 999).past 5 < 0 ∧ (timer5 1000).timerEn 5 ∧ 0 ≤ (timer5 1000).past 5 ∧
      regOf (exec (.eventTimerExpiry 5) (timer5 1000)) (Reg.timerCmp 5) = 1667672 ∧
      regOf (exec (.eventTimerExpiry 5) (timer5 2000000)) (Reg.timerCmp 5) = 3334344 ∧
      regOf (exec (.eventTimerExpiry 5) ((timer5 1000).setReg (Reg.timerCtrl 5) 0x90000000)) (Reg.timerCtrl 5) = 0x30000000 ∧
      (timer5 0).live (.fn pf0) ∧ (timer5 0).admits (.fn pf0) (Reg.timerCmp 5) ∧ (timer5 0).ownsTimer 5 (.fn pf0) ∧
      (timer5 0).admits (.fn pf0) (Reg.timerCtrl 5) ∧ (timer5 0).ownsTimer 5 (.fn pf1) = false ∧
      (timer5 0).assignsTimer 5 (.fn pf1) 0 = false ∧ (timer5 0).syncRuns ∧ on.syncRuns = false ∧ (timer5 0).syncDue ∧
      ({ timer5 0 with time := { (timer5 0).time with lastSync := some 0 } } : State).syncDue = false ∧
      after (exec (.ptmDialogue (some 50000)) (timer5 0)) (fun t => t.now == 5000) ∧
      after (exec (.ptmDialogue (some 50000)) (timer5 4900)) (fun t => t.now == 4900 && t.time.err == 100) ∧
      after (exec (.ptmEnableWrite 0 false) (timer5 0)) (fun t => t.regB Reg.syncStatus 28) := by decide

/-- The start of Table 03-16: the port 0 PF holds SEM[0] and SEM[3] and end 0 of MBX[9], with words both ways. -/
def table316 : State :=
  ((box9.setHolder 0 1).setHolder 3 1).setReg (Reg.portStatus 0) 0x00064000

/-- Witnesses of `FunctionResets`; Table 03-16, ticks 112 and 148: two semaphores released, CH_STATUS[9] of the port 1 PF
reads 0xD054_0000. -/
theorem test_functionResets :
    table316.clk.alive ∧ (table316.port 0).perst = false ∧ table316.regF (Reg.portStatus 0) 16 4 ≠ 0 ∧
      table316.fnLive 0 ∧ table316.fnLive 5 ∧ isPf 5 = false ∧
      after (exec (.perstAssert 0 100) table316) (fun t =>
        t.holder 0 == 0 && t.holder 3 == 0 && t.reg Reg.semEvent == 0x40000002 && t.chStatusRead 9 0x41 == 0xD0540000 &&
          (t.ist 960).pend && (t.ist 905).pend) ∧
      after (exec (.flr 0) table316) (fun t => t.holder 3 == 0) ∧
      after (exec (.flr 5) table316) (fun t => t.holder 3 == 1) := by decide +kernel

/-- Witnesses of `PowerOnAndDeviceReset`: reset itself, a port held in PERST, CRS due, and the holder of SEM[0]. -/
theorem test_powerOnAndDeviceReset :
    State.reset.clk.alive = false ∧
      after (exec (.porNDeassert 0b110 2 false) State.reset) (fun t => t.refOf 0 == 1 && t.refOf 1 == 2) ∧
      ((on.setPort 0 { on.port 0 with perst := true }).port 0).perst = true ∧ on.clk.alive ∧
      after (exec (.crsEnd 0) ({ on.setRegF Reg.devStatus 24 4 2 with time := { on.time with raw := 2000000 } }.setPort 0
        { on.port 0 with crs := true })) (fun t => !(t.port 0).crs) ∧
      on.live (.fn pf1) ∧ on.admits (.fn pf1) Reg.devCtrl ∧ (on.setHolder 0 0x41).holds0 (.fn pf1) ∧
      after (exec (.reset (.fn pf1) 0x80000000) (on.setHolder 0 0x41)) (fun t => !t.ready && t.stage == 2 && t.holder 0 == 0) ∧
      after (exec (.porNAssert 1000) table316) (fun t => t.holder 3 == 0) := by decide +kernel

/-- SEM[0] held by the port 0 PF. -/
def on0 : State := on.setHolder 0 1

/-- Witnesses of `EngineEnable`: the pools of reset fit; a submission queue without a completion queue; a busy channel. -/
theorem test_engineEnable :
    on0.live (.fn pf0) ∧ on0.admits (.fn pf0) Reg.devCtrl ∧ on0.holds0 (.fn pf0) ∧ on0.regB Reg.devCtrl 0 = false ∧
      on.holds0 (.fn pf0) = false ∧ on.reg Reg.devCtrl = 0 ∧
      after (exec (.engineEnSet (.fn pf0) 1) on0) (fun t => t.clk.checking && !t.inGf &&
        after (exec .deviceLevelCheck t) (fun u => u.engineOn && u.bpm.live &&
          after (exec (.engineEnClear (.fn pf0) 0) u) (fun w => !w.engineOn) &&
          after (exec (.engineEnClear (.fn pf0) 0) (u.setChan 3 { Channel.reset with state := 1 })) (fun w => w.engineOn)) &&
        after (exec .deviceLevelCheck (t.setQueue 1 { Queue.reset with en := true, ty := 1 })) (fun u =>
          u.regF Reg.devStatus 0 16 == 0x0702 && !u.engineOn) &&
        after (exec .deviceLevelCheck (t.setReg (Reg.poolCfg 0) 0x3FFFF)) (fun u =>
          u.regF Reg.devStatus 0 16 == 0x0808)) := by decide +kernel

/-- The device in a stage, out of POR with the XO present. -/
def atStage (k : Nat) : State := (on.setReg Reg.devStatus (at_ 24 k)).setReg Reg.pllStatus 0x01000000

/-- Witnesses of `StartupStages`: each stage in turn; blank banks end in Ground Floor mode. -/
theorem test_startupStages :
    (atStage 0).clk.alive ∧ (atStage 0).stage = 0 ∧ (atStage 0).refPresent ((atStage 0).refOf 0) ∧
      after (exec .rootLock (atStage 0)) (fun t => t.stage == 1 && t.pllLocked 0) ∧ (atStage 1).stage = 1 ∧
      (atStage 2).stage = 2 ∧ after (exec .bankSelection (atStage 2)) (fun t => t.inGf && t.stage == 7 && t.ready) ∧
      after (exec .hbmTraining (atStage 3)) (fun t => t.stage == 4 && t.reg (Reg.sgStatus 1) == Reg.sgReset 1) ∧
      after (exec (.spanSelfTestStartup 0 0 true) (atStage 4)) (fun t => t.ready && t.stage == 5 && t.clk.fuseBlowDue) ∧
      (atStage 4).clk.fuseBlowDue = false ∧
      after (exec (.fuseBlow true) { on with clk := { on.clk with fuseBlowDue := true } }) (fun t => !t.clk.fuseBlowDue) ∧
      on.stage ≠ 1 := by decide +kernel

/-- PLL-A active and both locked; PLL-A on the XO, PLL-B on port 0's refclk. -/
def rooted : State :=
  (((on.setHolder 0 1).setReg Reg.pllStatus 0x63000000).setReg (Reg.pllCtrl 1) 1).setRegF Reg.devStatus 24 4 5

/-- Witnesses of `ClockRoot`; a lost XO is no planned loss and records 0x0C01. -/
theorem test_clockRoot :
    rooted.live (.fn pf0) ∧ rooted.admits (.fn pf0) Reg.rootCtrl ∧ rooted.holds0 (.fn pf0) ∧ rooted.activePll = 0 ∧
      rooted.admits (.fn pf0) (Reg.pllCtrl 1) ∧ rooted.pllLocked 0 ∧ rooted.pllLocked 1 ∧ rooted.stage ≠ 0 ∧
      after (exec (.switch (.fn pf0) 0x80000000) rooted) (fun t => t.activePll == 1 && t.regF Reg.pllStatus 0 16 == 1) ∧
      after (exec (.refSel 1 (.fn pf0) 2) rooted) (fun t => t.refOf 1 == 2 && !t.pllLocked 1 &&
        after (exec (.pllRelock 1) t) (fun u => u.pllLocked 1) &&
        after (exec (.switch (.fn pf0) 0x80000000) t) (fun u => u.activePll == 0)) ∧
      after (exec (.referenceLoss true) rooted) (fun t => t.activePll == 1 && !t.pllLocked 0 && t.fc.hist.length == 1) ∧
      after (exec (.referenceLoss false) rooted) (fun t => t.regF Reg.pllStatus 0 16 == 1 &&
        after (exec (.referenceLoss true) t) (fun u => u.inGf)) := by decide +kernel

/-- A healthy answer of a regulator. -/
def goodReading : PmbReading := { statusWord := 0, vout := 0x300, iout := 5, pout := 7, fault := false, warning := false }

/-- 24 sensors, one of them at `x`. -/
def sensors (x : BitVec 8) : List (BitVec 8) := x :: List.replicate 23 40

/-- The device at tick 100,000 `k`. -/
def atTick (k : Nat) (s : State) : State := { s with time := { s.time with now := 100000 * k } }

/-- CCLK at step 1 with the core regulator enabled and nothing else asking for it. -/
def slowed : State := { on.setReg Reg.pmbCfg 1 with clk := { on.clk with cclk := 1 } }

/-- Witnesses of `StepsAndLimits` (CAP is 2,880 at reset): over the cap, ten loop ticks below the gain, 105 °C, twice
120 °C, MIN_STEP 1, a trim, an unanswered poll. -/
theorem test_stepsAndLimits :
    on.clk.alive ∧ after (exec (.powerCapLoop 2881) on) (fun t => t.capStep == 0) ∧
      after (exec (.powerCapLoop 2881) (atTick 1 on)) (fun t => t.capStep == 1 && t.clk.loopK == 1 &&
        after (exec (.powerCapLoop 2384) (atTick 2 { t with clk := { t.clk with up := 9 } })) (fun u => u.capStep == 0) &&
        after (exec (.powerCapLoop 2385) (atTick 2 { t with clk := { t.clk with up := 9 } })) (fun u => u.capStep == 1 && u.clk.up == 0)) ∧
      after (exec (.thermalSample (sensors 105)) on) (fun t => t.thermStep == 1 && t.regB Reg.pwrStatus 24 &&
        after (exec (.thermalSample (sensors 106)) { t with time := { t.time with now := 1000 } }) (fun u => u.thermStep == 1)) ∧
      after (exec (.thermalSample (sensors 120)) on) (fun t => !t.board.thermTrip &&
        after (exec (.thermalSample (sensors 120)) { t with time := { t.time with now := 999 } }) (fun u => !u.board.thermTrip) &&
        after (exec (.thermalSample (sensors 120)) { t with time := { t.time with now := 1000 } }) (fun u => u.board.thermTrip && u.inGf)) ∧
      after (exec (.cclkStepChange true) (on.setReg Reg.stepCtrl 1)) (fun t => t.clk.cclk == 1) ∧
      slowed.wantStep = 0 ∧ after (exec (.cclkStepChange true) slowed) (fun t => t.clk.cclk == 1 && t.out == [.voutCommand 750] &&
        after (exec (.cclkStepChange false) t) (fun u => u.clk.cclk == 1) &&
        after (exec (.cclkStepChange true) t) (fun u => u.clk.cclk == 0) &&
        after (exec (.cclkStepChange false) { t with time := { t.time with now := 20000 } }) (fun u => u.clk.cclk == 0)) ∧
      after (exec (.vddCoreTrim 0) (on.setReg Reg.pmbCfg 1)) (fun t => t.clk.vcore == 700) ∧
      after (exec (.pmbusPoll [none, some goodReading, none, none]) (on.setReg Reg.pmbCfg 3)) (fun t =>
        t.regB (Reg.pmbStatus 0) 31 && !t.regB (Reg.pmbStatus 1) 31 && t.reg (Reg.pmbVout 1) == 0x300) ∧
      after (exec (.pmbAlert (List.replicate 4 none)) { on.setReg Reg.pmbCfg 1 with clk := { on.clk with noAck := [(0, 2)] } })
        (fun t => t.inGf) := by decide +kernel

/-- IDLE with every function in D3hot since tick 0, at tick 100,000. -/
def deepDue : State :=
  { (on.setRegF Reg.pwrStatus 22 2 1) with
    time := { on.time with now := 100000 },
    ports := [(0, { PortSt.reset with perst := false, crs := false }), (1, { PortSt.reset with perst := false, crs := false })],
    fns := [(0, { FnSt.reset with d3hot := true }), (64, { FnSt.reset with d3hot := true })] }

/-- A span map with ES[2] at logical index 0, ungated; session 1 homed on logical index 0 and bound to VB[3]. -/
def spanUp : State :=
  { on.setReg (Reg.gated 0) 0 with
    span := { on.span with mapEnc := [(0, 2)], idle := [] },
    time := { on.time with now := 100000 } }

def boundOne : State :=
  spanUp.setSession 1 { Session.reset with claimed := true, en := true, cfg := [0x10000000], home := some (0, 0), vb := some 3 }

/-- Witnesses of `DeepIdle`. -/
theorem test_deepIdle :
    deepDue.deepReady ∧ deepDue.canSleep 0 ∧ after (exec (.selfRefreshEntry 0) deepDue) (fun t => t.asleep 0 &&
        after (exec (.selfRefreshExit 0) t) (fun u => !u.asleep 0)) ∧
      after (exec .deepIdleEntry deepDue) (fun t => t.clk.inDeep && t.ic.gated && t.asleep 3 && t.endsDeep (.toD0 64) &&
        after (exec (.deepIdleExit (.toD0 64)) t) (fun u => !u.clk.inDeep && !u.asleep 3 && !(u.fn 64).d3hot)) ∧
      spanUp.physOf .enc 0 = some 2 ∧ spanUp.spanNeeded .enc 0 = false ∧ spanUp.inTest .enc 2 = false ∧
      spanUp.replayDue .enc 0 0 = false ∧
      after (exec (.spanPowerGate (.span .enc 0)) spanUp) (fun t => t.regB (Reg.gated 0) 2) ∧
      boundOne.spanNeeded .enc 0 = true ∧ boundOne.pairBound 3 = true ∧ boundOne.pairBound 2 = false ∧ boundOne.vbFrames 2 = [] ∧
      after (exec (.unitWake (.span .enc 0)) (boundOne.setReg (Reg.gated 0) 4)) (fun t => !t.regB (Reg.gated 0) 2) ∧
      after (exec (.unitWake (.vestibule 3)) boundOne) (fun t => !t.span.gatedVb.contains 3) := by decide +kernel

/-- Witnesses of `LinksAndBuses`. -/
theorem test_linksAndBuses :
    on.clk.alive ∧ (on.port 1).perst = false ∧ linkOkAt 6 16 true = true ∧ linkOkAt 6 16 false = false ∧
      after (exec (.linkUp 1 6 16 true) on) (fun t => t.reg (Reg.portStatus 1) == 0x00064200 &&
        after (exec (.linkPmTransition 1 4) t) (fun u => u.reg (Reg.portStatus 1) == 0x00064204)) ∧
      on.fnLive 64 ∧ after (exec (.vfEnableSet 1 63) (on.setPort 1 { on.port 1 with numVfs := 0 })) (fun t => t.fnExists 127) ∧
      after (exec (.spdmMessage 0 true) on) (fun t => (t.port 0).spdmSecured &&
        after (exec (.ideKm 0 ⟨3, [.aperture]⟩) t) (fun u => u.reg (Reg.ideStatus 0) == 0x8 && !u.ideDrops 0 .aperture &&
          after (exec (.ideCheckFailed 0 3) u) (fun w => w.reg (Reg.ideStatus 0) == 0x80 && w.ideDrops 0 .aperture))) ∧
      (on.port 0).spdmSecured = false ∧ on.right 0 0 = true ∧ after (exec (.jtagAccess (.other 7)) on) (fun t => t == on) ∧
      (on.setReg Reg.portRights 1).right 0 0 = false := by decide +kernel

/-- The one refusal of `LinksAndBuses`, on a part whose DEBUG_LOCK is unblown. -/
theorem test_jtagOpenPart :
    exec (.jtagAccess (.other 7)) { on with sec := { on.sec with fuses := [] } } = .refused .jtagOpenPart := rfl

/-- A read of 64 bytes of page 0 by a requester, and a trained, awake device. -/
def rd64 (id : Fin 52) : MemReq := { id, addr := 0, bytes := 64, write := false, holds := [] }

/-- Witnesses of `MemoryGrant`: the Concourse's class is highest; a starved requester goes first; the rebuild's count of 7
comes before both. -/
theorem test_memoryGrant :
    on.asleep 0 = false ∧ on.mc.grantEnd.get 0 0 ≤ on.cyc ∧ (on.flushExpired 0).reqValid 0 (rd64 47) ∧
      after (exec (.memoryArbiterDecision 0 [rd64 47] .clean) (on.setRegB (Reg.stackStatus 0) 30 true)) (fun t => !t.asleep 0) ∧
      after (exec (.memoryArbiterDecision 0 [rd64 47] .clean) on) (fun t => t.mc.grantEnd.get 0 0 == 1 &&
        after (exec (.memoryArbiterDecision 0 [rd64 46, rd64 47] .clean) t) (fun u => u.starveOf 0 46 == 0)) ∧
      after (exec (.memoryArbiterDecision 0 [rd64 46, rd64 47] .clean) on) (fun t => t.starveOf 0 46 == 1 && t.starveOf 0 47 == 0) ∧
      after (exec (.memoryArbiterDecision 0 [rd64 46, rd64 47] .clean) { on with mc := { on.mc with starve := [(46, 64)] } })
        (fun t => t.starveOf 0 46 == 0 && t.starveOf 0 47 == 1 && t.regB Reg.mcArbCfg 31) ∧
      after (exec (.memoryArbiterDecision 0 [rd64 47, rd64 50] .clean)
        { (on.setRegF (Reg.sgStatus 0) 29 3 2) with mc := { on.mc with starve := [(50, 7)] } }) (fun t => t.starveOf 0 47 == 1) ∧
      after (exec (.combiningFlush 0 5)
        { on with mc := { on.mc with combine := [{ stack := 0, stripe := 5, requester := 47, opened := 0, mask := 1 }] },
                  time := { on.time with cycle := 64 } }) (fun t => t.mc.combine.isEmpty) := by decide +kernel

/-- Group 7 FROZEN on member 2. -/
def frozen7 : State := (on.setRegF (Reg.sgStatus 7) 29 3 1).setRegF (Reg.sgStatus 7) 26 3 2

/-- Witnesses of `GroupStates`: the first spare of stack 1 is pseudo-channel 30 (R263, SP[0]); none left; a freeze. -/
theorem test_groupStates :
    frozen7.sgState 7 = 1 ∧ frozen7.memberOut 7 = 2 ∧ frozen7.sparesOf 1 = 2 ∧
      after (exec (.diagnosisEnd 7 .clean) frozen7) (fun t => t.sgState 7 == 0) ∧
      after (exec (.diagnosisEnd 7 .memberFault) frozen7) (fun t => t.sgState 7 == 2 && t.memberPc 7 2 == 30) ∧
      after (exec (.diagnosisEnd 7 .rowFault) (frozen7.setRegF (Reg.stackStatus 1) 28 2 0)) (fun t => t.sgState 7 == 3) ∧
      on.sgState 0 = 0 ∧ (on.flushExpired 0).reqValid 0 (rd64 47) ∧ touchesLine 0 64 0 = true ∧ touchesLine 0 64 1 = false ∧
      on.twin (memReport 0 0x0804 0 none) = none ∧
      after (exec (.memoryArbiterDecision 0 [rd64 47] (.uncorrectable 3 0 1 9)) on) (fun t =>
        t.sgState 0 == 1 && t.memberOut 0 == 3 && t.reg (Reg.diagSynd 0) == 9) ∧
      after (exec (.memoryArbiterDecision 0 [rd64 47] (.twoUncorrectable 3 0 1 0 1 9)) on) (fun t =>
        t.sgState 0 == 1 && t.memberOut 0 == 1 && t.mem.poisoned.length == 2) := by decide +kernel

/-- Group 0 AT_RISK without member 0, and session 4 with slot 1 visible. -/
def risky : State :=
  let s := (on.setRegF (Reg.sgStatus 0) 29 3 3).setRegF (Reg.sgStatus 0) 26 3 0
  s.setSession 4 { s.session 4 with vis := [(0, [Slot.ofPicture 1 7 0 0 0 8 0 0 0 false Samples.none])] }

/-- A request above the pools, of a line that held session 4's slot 1. -/
def above : MemReq :=
  { id := 44, addr := 0xBFFF50000, bytes := 64, write := false, holds := [.picture 4 0 1] }

/-- Witness of the last clause of `GroupStates`. -/
theorem test_pictureLost :
    risky.sgState 0 = 3 ∧ risky.memberOut 0 = 0 ∧ (risky.flushExpired 0).reqValid 0 above ∧
      risky.poolsEnd ≤ above.addr / 1024 * 1024 ∧
      risky.readersOf 4 0 1 = [] ∧
      after (exec (.memoryArbiterDecision 0 [above] (.uncorrectable 1 0 0 0)) risky) (fun t =>
        ((t.session 4).vis.get 0 []).isEmpty && (t.session 4).nextIntra == (t.session 4).isEnc && t.fc.hist.length == 1) := by
  decide +kernel

/-- Stack 0 trained at raw tick 0, now at raw tick 3,120: 8 intervals of 390. -/
def trained : State :=
  { on with mc := { on.mc with refreshBase := [(0, (0, 0))] }, time := { on.time with raw := 3120 } }

/-- Witnesses of `Refresh`. -/
theorem test_refresh :
    trained.refreshing 0 ∧ trained.intervals 0 = 8 ∧ trained.debt 31 31 = 8 ∧
      after (exec (.perBankRefresh 31 31) trained) (fun t => t.debt 31 31 == 7 && t.debt 31 30 == 8 &&
        after (exec (.forcedRefresh 31 31) t) (fun u => u.regF (Reg.stackStatus 0) 0 16 == 0)) ∧
      after (exec (.forcedRefresh 31 31) trained) (fun t => t.regF (Reg.stackStatus 0) 0 16 == 1) ∧
      after (exec (.stackTemperatureChange 0 85) trained) (fun t => t.refInterval 0 == 195 && t.debt 0 0 == 8) ∧
      after (exec (.stackTemperatureChange 0 0xF0) trained) (fun t => t.refInterval 0 == 390) := by decide +kernel

/-- Witnesses of `AddressMap` at the corners of the maps, and of a stripe's units. -/
theorem test_addressMap :
    mapGroup 3 24 = 5 ∧ mapGroup 2 767 = 23 ∧ mapPage 2 768 = 32 ∧ pageOf 3 (mapGroup 3 786431) (mapPage 3 786431) = 786431 ∧
      unitMember 4 0 = 0 ∧ parityMember 4 = 4 ∧ (List.replicate 256 (7 : Byte)).length = 256 := by decide +kernel

/-- Context 2 of pair 0. -/
abbrev cx : Ctx := { pair := 0, slot := 2 }

/-- A packet of the port 0 PF from queue 3 with completion queue 4, tag 0x1234: opcode and session, then P0 onward. -/
def pkt (opc sess : Nat) (ps : List Word) : Packet :=
  { id := 7, q := 3, fid := 0, words := [at_ 16 sess ||| at_ 0 opc, 0x00041234, 0, 0] ++ ps, state := .running cx, mark := 0,
    mute := false }

/-- The packet runs in context 2 of pair 0. -/
def inCtx (s : State) (p : Packet) : State :=
  ({ s with qs := { s.qs with packets := [p] } }).setCtx cx { Context.reset with packet := some p.id }

/-- Status, reason and value words of the last completion produced. -/
def lastDone (r : Res) : Nat × Nat × List Word :=
  match r with
  | .next t => match t.qs.held.getLast? with
    | some c => (c.status, c.reason, c.vals)
    | none => (999, 0, [])
  | _ => (998, 0, [])

/-- An unacknowledged entry of a port 1 function. -/
def histE (seq : Nat) : Hist :=
  { seq, time := 0, cls := 0, injected := false, escalated := false, acked := false, session := none, unit := 0x800,
    code := 0x0802, reaction := 0, fid := some 64, detail := 0, outcome := 0, repeats := 0, cyc := 0 }

/-- Witnesses of `PlainPackets`. -/
theorem test_plainPackets :
    (inCtx on (pkt 0 0 [])).packetIn cx 0 = some (pkt 0 0 []) ∧
      lastDone (exec (.nop cx) (inCtx on (pkt 0 0 []))) = (0, 0, [0, 0, 0, 0]) ∧
      lastDone (exec (.devQuery cx) (inCtx on (pkt 1 0 [0]))) = (0, 0, [0x012800A1, 64, 0, 0]) ∧
      lastDone (exec (.devQuery cx) (inCtx on (pkt 1 0 [4]))) = (0x15, 0x070A, [0, 0, 0, 0]) ∧
      lastDone (exec (.codeStatus cx) (inCtx on (pkt 0xA0 0 []))) = (0, 0, [0, 0, 0, 0]) ∧
      lastDone (exec (.powerCap cx) (inCtx on (pkt 0x90 0 [399]))) = (0x15, 0x0407, [0, 0, 0, 0]) ∧
      lastDone (exec (.powerCap cx) (inCtx on (pkt 0x90 0 [400]))) = (0x17, 0x0708, [0, 0, 0, 0]) ∧
      lastDone (exec (.powerCap cx) (inCtx (on.setHolder 0 6) (pkt 0x90 0 [0]))) = (0, 0, [2880, 0, 0, 0]) ∧
      lastDone (exec (.faultAck cx) (inCtx { on with fc := { on.fc with hist := [(0, histE 1), (1, histE 2), (2, histE 3)] } }
        (pkt 0x81 0 [2]))) = (0, 0, [2, 0, 0, 0]) := by decide +kernel

/-- A flow image that R254 accepts: payload 1,024, 16 slots of 1,088 bytes, one MiB in flight, no key. -/
def img9 : List Word := [0x00FF0400, 1000, 0x01002000, 0, 1, 0, 0, 0, 0x00040440, 0x10000, 0, 0x20000, 0, 0, 0, 0]

/-- A live buffer pool with buffer 0 of POOL[0] (handle 0x0000_0001) and of POOL[3] (handle 0x6000_0001) allocated to the
port 0 PF, memory all zero, one span of each kind mapped, no span gated, flow 72 configured. -/
def pooled : State :=
  { (on.setReg (Reg.gated 0) 0).setReg (Reg.gated 1) 0 with bpm := { live := true, pools := [(0, { Pool.reset with fresh := 1 }), (3, { Pool.reset with fresh := 1 })], bufs := [(0, { Buf.reset with state := 1, owners := [0] }), (bufKey 3 0, { Buf.reset with state := 1, owners := [0] })] }, mem := { on.mem with epoch := 0 }, span := { on.span with mapEnc := [(0, 0)], mapDec := [(0, 0)] }, flows := [(72, { Flow.reset with image := img9 })] }

/-- A decode session of 64 × 64 HEVC pictures, and an encode session of one such step at a fixed QP. -/
def dec9 : Session :=
  { Session.reset with claimed := true, en := true, cfg := [0x21002800, 0x00400040, 0x80100040, 0x001E0001, 0x01000000] ++ zeros 15 ++ [1] ++ zeros 11 }
def enc9 : Session :=
  { Session.reset with claimed := true, en := true, cfg := [0x11002800, 0x00400040, 0x80100040, 0x001E0001, 0x01000000, 0, 0x20A331E0] ++ zeros 9 ++ [0x10000000, 0x00400040, 0, 0, 1] ++ zeros 11 }

/-- Session 9 of the port 0 PF, disabled, and enabled with its check to come. -/
def sess9 : State := pooled.setSession 9 { Session.reset with claimed := true }
def checkOf (x : Session) : State :=
  { pooled.setSession 9 { x with checkBy := some 7 } with
    qs := { sess9.qs with packets := [{ pkt 0x11 9 [] with state := .checking }] } }

/-- The sessions enabled. -/
def play9 : State := pooled.setSession 9 dec9
def code9 : State := pooled.setSession 9 enc9

/-- Witnesses of `SessionPackets`: an all-zero descriptor configures (KIND 0), and its check fails with 0x0201. -/
theorem test_sessionPackets :
    firstRefusal ((inCtx pooled (pkt 0x10 9 [1, 0, 0])).configChecks (pkt 0x10 9 [1, 0, 0])) = none ∧
      after (exec (.sessConfig cx) (inCtx pooled (pkt 0x10 9 [1, 0, 0]))) (fun t => (t.session 9).claimed) ∧
      after (exec (.sessConfig cx) (inCtx sess9 (pkt 0x10 9 [0, 0, 1]))) (fun t => !(t.session 9).claimed) ∧
      after (exec (.sessEnable cx) (inCtx sess9 (pkt 0x11 9 []))) (fun t => (t.session 9).en && t.qs.held.isEmpty) ∧
      lastDone (exec (.consistencyCheck 9) (checkOf { Session.reset with claimed := true, en := true })) = (0x10, 0x0201, [0, 0, 0, 0]) ∧
      lastDone (exec (.consistencyCheck 9) (checkOf dec9)) = (0, 0, [4205, 1, 0, 0]) ∧
      lastDone (exec (.consistencyCheck 9) (checkOf enc9)) = (0, 0, [24410, 1, 0, 0]) ∧
      lastDone (exec (.sessDisable cx) (inCtx play9 (pkt 0x12 9 []))) = (0, 0, [0, 0, 0, 0]) ∧
      lastDone (exec (.sessDisable cx) (inCtx sess9 (pkt 0x12 9 []))) = (0, 0, [0, 0, 0, 0]) ∧
      after (exec (.sessDisable cx) (inCtx { sess9 with qs := { sess9.qs with keyAt := some 0 } } (pkt 0x12 9 [])))
        (fun t => t.qs.held.isEmpty && (t.packet? 7).isSome) ∧
      lastDone (exec (.sessSnapshot cx) (inCtx sess9 (pkt 0x13 9 [1, 0]))) = (0, 0, [0, 1, 0, 0]) := by decide +kernel

/-- An output descriptor for a 64 × 64 picture in the POOL[3] buffer: pitch 256, one band of each plane. -/
def out9 : List Word :=
  zeros 12 ++ [256, 0, 0, 0, 0x60000001, 0x00400001] ++ zeros 14 ++ [0x60000001, 0x00200005] ++ zeros 30

/-- `play9` with that descriptor in its buffer, a two-entry unit list in the POOL[0] one, and `code9` with a hint
header. -/
def desc9 : State := play9.store (play9.bufAddr (bufKey 3 0)) (bytesOfWords out9)
def list9 : State := play9.store (play9.bufAddr 0) (bytesOfWords ([1, 0, 16, 0, 0, 0, 0, 0, 1, 0, 16] ++ zeros 5))
def hint9 : State := code9.store (code9.bufAddr (bufKey 3 0)) (bytesOfWords [0x00080008])

/-- The frames after a command: identifier, session and stage waiting. -/
def framesAfter (r : Res) : List (Nat × Nat × Bool) :=
  match r with
  | .next t => t.span.frames.map fun f => (f.id, f.sess, f.stage == .waiting)
  | _ => []

/-- Witnesses of `FramePackets`. -/
theorem test_framePackets :
    lastDone (exec (.decFlush cx) (inCtx play9 (pkt 0x31 9 []))) = (0, 0, [0, 0, 0, 0]) ∧
      lastDone (exec (.encFlush cx) (inCtx code9 (pkt 0x21 9 [1]))) = (0, 0, [0, 0, 0, 0]) ∧
      lastDone (exec (.encFlush cx) (inCtx code9 (pkt 0x21 9 [0]))) = (0, 0, [0, 0, 0, 0]) ∧
      lastDone (exec (.encFrame cx) (inCtx code9 (pkt 0x20 9 [3, 0, 256]))) = (0x18, 0x0302, [0, 0, 0, 0]) ∧
      lastDone (exec (.decData cx [⟨.set 0 0 true, true, 100⟩]) (inCtx desc9 (pkt 0x30 9 [1, 0, 100, 0xFF, 0x60000001, 0]))) = (0, 0, [allW, 0, 100, 0]) ∧
      lastDone (exec (.hintAttach cx) (inCtx hint9 (pkt 0x24 9 [0x60000001, 0, 64]))) = (0, 0, [64, 0, 0, 0]) ∧
      lastDone (exec (.stairSet cx) (inCtx (pooled.setSession 9 { enc9 with en := false }) (pkt 0x22 9 [1, 0, 2]))) =
        (0, 0, [3, 0, 0, 0]) := by decide +kernel

theorem test_framesEnter :
    framesAfter (exec (.encFrame cx) (inCtx code9 (pkt 0x20 9 [0x60000001, 0, 256]))) = [(7 * 4096, 9, true)] ∧
      framesAfter (exec (.decData cx [⟨.picture, true, 100⟩]) (inCtx desc9 (pkt 0x30 9 [1, 0, 100, 0xFF, 0x60000001, 0]))) =
        [(7 * 4096, 9, true)] ∧
      framesAfter (exec (.decBurst cx [[⟨.picture, true, 16⟩], [⟨.picture, true, 16⟩]]) (inCtx list9 (pkt 0x32 9 [2, 1, 0, 2, 0x800000FF, 0x10000, 0]))) =
        [(7 * 4096, 9, true), (7 * 4096 + 1, 9, true)] := by decide +kernel

/-- Witnesses of `PacketRefusals`: a stale handle, a session locked by its EN, and a wrong-kind flush. -/
theorem test_packetRefusals :
    lastDone (exec (.sessSnapshot cx) (inCtx sess9 (pkt 0x13 9 [2, 0]))) = (0x18, 0x0302, [0, 0, 0, 0]) ∧
      lastDone (exec (.sessEnable cx) (inCtx play9 (pkt 0x11 9 []))) = (0x17, 0x0707, [0, 0, 0, 0]) ∧
      lastDone (exec (.encFlush cx) (inCtx play9 (pkt 0x21 9 [0]))) = (0x15, 0x0204, [0, 0xFF, 0, 0]) ∧
      lastDone (exec (.keyErase cx) (inCtx on (pkt 0x42 0 [128]))) = (0x15, 0x070A, [0, 0, 0, 0]) ∧
      lastDone (exec (.keyErase cx) (inCtx on (pkt 0x42 0 [127]))) = (0x16, 0x0602, [0, 0, 0, 0]) := by decide +kernel

/-- `pooled` with four buffers of POOL[0] and two of POOL[1] configured, free list of POOL[0] at index 3. -/
def alloc4 : State :=
  { (List.range 8).foldl (fun s q => s.setReg (Reg.poolCfg q) ([4, 2, 0, 0].getD q 0)) pooled with bpm := { pooled.bpm with pools := [(0, { Pool.reset with fresh := 3 })] } }

/-- A second BUF_ALLOC in context 1 of pair 1, for port 1's PF. -/
def cy : Ctx := { pair := 1, slot := 1 }
def pktY : Packet := { pkt 0x50 0 [100] with id := 8, fid := 64, state := .running cy }
def tied : State :=
  ({ alloc4 with qs := { alloc4.qs with packets := [pkt 0x50 0 [512], pktY] } }).setCtx cx { Context.reset with packet := some 7 }
def both : State := tied.setCtx cy { Context.reset with packet := some 8 }

/-- The value words of every completion produced. -/
def allDone (r : Res) : List (Nat × List Word) :=
  match r with
  | .next t => t.qs.held.map fun c => (c.status, c.vals)
  | _ => []

/-- Buffer 0 of POOL[0] with these owners. -/
def owned (os : List Nat) : State :=
  alloc4.setBuf 0 { Buf.reset with state := 1, owners := os }

/-- Buffer 0 DRAINING. -/
def draining0 : State := alloc4.setBuf 0 { Buf.reset with state := 2, gen := 2 }

/-- Witnesses of `BufferPackets`. -/
theorem test_bufferPackets :
    lastDone (exec (.bufAlloc cx none) (inCtx alloc4 (pkt 0x50 0 [512]))) = (0, 0, [0x00003001, 0, 3 * 512 + 2 * 2048, 0]) ∧
      lastDone (exec (.bufAlloc cx none) (inCtx alloc4 (pkt 0x50 0 [513]))) = (0, 0, [0x20000001, 1, 0, 0]) ∧
      lastDone (exec (.bufAlloc cx none) (inCtx { alloc4 with bpm := { alloc4.bpm with live := false } } (pkt 0x50 0 [1]))) =
        (0x13, 0x0304, [0, 0, 0, 0]) ∧
      allDone (exec (.bufAlloc cx (some ⟨cy, 0⟩)) both) =
        [(0, [0x00003001, 0, 5632, 0]), (0, [0x20000001, 1, 0, 0])] ∧
      lastDone (exec (.bufFree cx) (inCtx (owned [0]) (pkt 0x51 0 [1]))) = (0, 0, [0, 0, 0, 0]) ∧
      after (exec (.bufFree cx) (inCtx (owned [0]) (pkt 0x51 0 [1]))) (fun t => (t.buf 0).state == 2 && (t.buf 0).gen == 2) ∧
      lastDone (exec (.bufFree cx) (inCtx (owned [64, 0]) (pkt 0x51 0 [1]))) = (0, 0, [1, 0, 0, 0]) ∧
      lastDone (exec (.bufFree cx) (inCtx (owned [0]) (pkt 0x51 0 [2]))) = (0x18, 0x0302, [0, 0, 0, 0]) ∧
      lastDone (exec (.bufShare cx) (inCtx (owned [0]) (pkt 0x52 0 [1, 64]))) = (0, 0, [2, 0, 0, 0]) := by decide +kernel

theorem test_bufferClear :
    after (exec (.bufferClear 0 0) draining0) (fun t => (t.buf 0).state == 0 && (t.pool 0).returned == [0]) ∧
      after (exec (.bufferClear 0 0) { draining0 with regs := draining0.regs.put (Reg.sgStatus 0) 0x60000000 })
        (fun t => (t.buf 0).state == 3) ∧
      after (exec (.bufferClear 0 1) draining0) (fun t => t == draining0) := by decide +kernel

/-- Witness of `PoolLayout`: two buffers of POOL[1] lie below four of POOL[0]. -/
theorem test_poolLayout : alloc4.bufAddr (bufKey 1 1) = 2048 ∧ alloc4.bufAddr (bufKey 0 0) = 4096 := by decide +kernel

/-- Slot 3 LOADED for the port 0 PF, with this many holds. -/
def keyed (holds : Nat) : State :=
  on.setKey 3 { KeySlot.reset with state := 1, usage := 1, holds, key := List.replicate 16 5 }

/-- The state of slot 3, and whether packet 7 is gone. -/
def slotAfter (r : Res) : Nat × Bool :=
  match r with
  | .next t => ((t.key 3).state, (t.packet? 7).isNone)
  | _ => (9, false)

/-- Witnesses of `KeyPackets`. -/
theorem test_keyPackets :
    (let p := pkt 0x40 0 [1, 0, 5, 1, 1]
     let s := inCtx on p
     let blob := some (List.replicate 6 0 ++ [16, 1] ++ List.replicate 1656 (0 : Byte))
     firstRefusal ((s.importChecks p blob).take 6) = none ∧ s.importSlot p = some 5) ∧
      lastDone (exec (.keyErase cx) (inCtx on (pkt 0x42 0 [allW]))) = (0, 0, [0, 0, 0, 0]) ∧
      lastDone (exec (.keyErase cx) (inCtx (keyed 0) (pkt 0x42 0 [3]))) = (0, 0, [1, 0, 0, 0]) ∧
      lastDone (exec (.keyErase cx) (inCtx (keyed 0) (pkt 0x42 0 [allW]))) = (0, 0, [1, 0, 0, 0]) ∧
      slotAfter (exec (.keyErase cx) (inCtx (keyed 0) (pkt 0x42 0 [3]))) = (0, true) ∧
      slotAfter (exec (.keyErase cx) (inCtx (keyed 2) (pkt 0x42 0 [3]))) = (2, false) := by decide +kernel

theorem test_attest :
    (let p := pkt 0x41 0 [0, 0, 0, 1, 3]
     let s := inCtx on p
     s.refOrBus p true 0 64 = none ∧ s.refOrBus p true 2 6912 = none ∧ (s.input p true 0 64 (some [])).isSome) ∧
      lastDone (exec (.attest cx (some []) true) (inCtx pooled (pkt 0x41 0 [0, 0, 0x60000001, 0, 1]))) = (0, 0, [6912, 0, 0, 0]) := by
  decide +kernel

/-- A write of this packet or request in progress. -/
def writing (packet : Option Nat) (mbx : Option (Nat × Nat)) : State :=
  { inCtx on { pkt 0xA1 0 [] with state := .writing } with
    sec := { on.sec with write := some { packet, mbx, image := [1, 2, 3], fid := 0, pins := [] } } }

/-- A request of the port 0 PF at MBX[0]: opcode 0xA0. -/
def request0 : State :=
  (on.setReg Reg.devStatus 0x80000000).setBox 0
    { Mbx.reset 0 with e0 := { MbxEnd.reset with owner := 1, queue := [0xA0001234, 0, 0, 4096] } }

/-- Witnesses of `FirmwareWrites`. -/
theorem test_firmwareWrites :
    (let p := pkt 0xA1 0 [0, 0, 4096, 1]
     let s := inCtx (on.setHolder 0 1) p
     firstRefusal ((s.recoverChecks p (some [])).take 4) = none ∧ (s.input p true 0 4096 (some [])).isSome) ∧
      request0.takesRequest ∧ (request0.box 0).e1.owner = 0x81 ∧
      (boxOf (exec (.fwRecoverMailbox none) request0) 0).e1.queue = [0xA1141234, 0x0207, 0, 0] ∧
      lastDone (exec (.firmwareWriteEnd true) (writing (some 7) none)) = (0, 0, [0, 0, 0, 0]) ∧
      after (exec (.firmwareWriteEnd true) (writing (some 7) none))
        (fun t => t.spareBank.take 3 == [1, 2, 3] && t.sec.rec0.isSome && t.sec.rec1.isNone && t.sec.write.isNone) ∧
      after (exec (.firmwareWriteEnd true) (writing none (some (9, 0)))) (fun t => t.sec.rec0.isNone && t.sec.write.isNone) :=
  by decide +kernel

/-- A record made by the rule is valid, so a state with two valid records and their order exists. -/
theorem test_recordValid (n : Nat) (b : Bool) : (ActiveRec.new n b).valid = true := by simp [ActiveRec.valid, ActiveRec.new]

theorem test_firmwareWriteFails :
    lastDone (exec (.firmwareWriteEnd false) (writing (some 7) none)) = (0x20, 0, [0, 0, 0, 0]) := by rfl

/-- Channel 5 assigned to the port 0 PF in a state, the POOL[0] buffer as its list. -/
def chan5 (st : Nat) : State := pooled.setChan 5 { Channel.reset with assigned := true, owner := 0, state := st }

/-- A DMA_KICK of one descriptor, a FLOW_SET of session 9's flow 0, an injection of control table 0. -/
def kick5 : Packet := pkt 0x60 0 [5, 1, 0, 1]
def flow9 : Packet := pkt 0x70 9 [0, 1, 0]
def inject0 : Packet := pkt 0x80 0 [0x0900, 0x0901, 0, 0]

/-- An injection that is due. -/
def due0 (d : Nat) : State :=
  { inCtx on { inject0 with state := .injecting } with
    fc := { on.fc with injections := [{ packet := 7, unit := 0x0900, code := 0x0901, cls := 0, due := d }] } }

/-- Witnesses of `KicksFlowsAndInjections`. -/
theorem test_kicksFlowsAndInjections :
    lastDone (exec (.dmaKick cx) (inCtx (chan5 3) kick5)) = (0x20, 0, [0, 0, 0, 0]) ∧
      after (exec (.dmaKick cx) (inCtx (chan5 0) kick5)) (fun t => (t.chan 5).state == 1 && (t.chan 5).kicks == [7] && (t.buf 0).pins == 1) ∧
      after (exec (.dmaKick cx) (inCtx ((chan5 1).setChan 5 { (chan5 1).chan 5 with kicks := [6] }) kick5))
        (fun t => (t.chan 5).kicks == [6, 7]) ∧
      lastDone (exec (.flowSet cx) (inCtx (pooled.setSession 9 { enc9 with en := false }) flow9)) = (0, 0, [72, 0, 0, 0]) ∧
      (let h := (code9.store (code9.bufAddr 0) (bytesOfWords img9)).setFlow 72 { Flow.reset with image := img9, state := 2 }
       after (exec (.flowSet cx) (inCtx h flow9)) (fun t => (t.flow 72).state == 1)) ∧
      after (exec (.faultInject cx) (inCtx on inject0)) (fun t => t.fc.injections.length == 1) ∧
      after (exec (.injectedFaultFire 7) (due0 1)) (fun t => t == due0 1) ∧
      lastDone (exec (.injectedFaultFire 7) (due0 0)) = (0, 0, [1, 0, 0, 0]) := by decide +kernel

/-- Queue 3 a submission queue of 16 entries bound to the port 0 PF with DEFAULT_CQ 4, a completion queue of 16; queue 5
bound to VF 5 at slot 2. -/
def ringed : State :=
  (((on.setQueue 3 { Queue.reset with en := true, ty := 1, logSize := 4, base := 0x10000, defaultCq := 4 }).setQueue 4
    { Queue.reset with en := true, ty := 2, logSize := 4, base := 0x20000, phase := true, irqSrc := 100 }).setQueue 5
    { Queue.reset with en := true, ty := 1, logSize := 4, fid := 5, dbSlot := 2, defaultCq := 4 })

/-- Host-protocol events counted on port 0. -/
def eventsOf (r : Res) : Nat := (regOf r (Reg.protoEvents 0)).toNat

/-- Witnesses of `UnboundDoorbells`: the PF at its own VF's queue, and the VF at a slot without a queue. -/
theorem test_unboundDoorbells :
    eventsOf (exec (.doorbellSubmission pf0 40 4 1) ringed) = 1 ∧ eventsOf (exec (.doorbellCompletion vf5 24 8 1) ringed) = 1 ∧
      (ringed.queue 5).fid = 5 ∧ (ringed.qs.tbl.all fun e => e.2.fid != 5 || e.2.dbSlot != 3) := by decide +kernel

/-- `ringed` with two entries ready in queue 3, device READY. -/
def ready2 : State := ringed.setQueue 3 { ringed.queue 3 with tail := 2 }

/-- Witnesses of `DoorbellsAndFetch`. -/
theorem test_doorbellsAndFetch :
    after (exec (.doorbellSubmission pf0 24 4 15) ringed) (fun t => (t.queue 3).tail == 15) ∧
      after (exec (.doorbellSubmission pf0 24 4 16) ringed) (fun t => (t.queue 3).dbDrops == 1) ∧
      after (exec (.doorbellSubmission vf5 16 4 1) ringed) (fun t => (t.queue 5).tail == 1) ∧
      after (exec (.doorbellCompletion pf0 32 8 2) (ringed.setQueue 4 { ringed.queue 4 with tail := 2 }))
        (fun t => (t.queue 4).head == 2) ∧
      after (exec (.doorbellCompletion pf0 32 8 1) ringed) (fun t => (t.queue 4).dbDrops == 1) ∧
      after (exec (.fetchBatch 3 [[0], [1]]) ready2) (fun t => t.qs.packets.length == 2 && (t.queue 3).head == 2) ∧
      after (exec (.fetchBatch 3 [[0]]) ready2) (fun t => t.qs.packets.length == 1 && (t.queue 3).fetchErr) ∧
      after (exec (.fetchBatch 3 []) ringed) (fun t => t.qs.packets.isEmpty) := by decide +kernel

/-- Queue 9 of the port 1 PF with one entry ready; `ready2` after its batch, in the same FCLK cycle. -/
def ready9 : State :=
  ((ready2.setQueue 4 { ready2.queue 4 with fid := 0 }).setQueue 9
    { Queue.reset with en := true, ty := 1, logSize := 4, fid := 64, defaultCq := 10, tail := 1 }).setQueue 10
    { Queue.reset with en := true, ty := 2, logSize := 4, fid := 64 }
def tied9 (tie : Bool) : State :=
  match exec (.fetchBatch 3 [[0], [1]]) { ready9 with qs := { ready9.qs with sessTie := tie } } with
  | .next t => t
  | _ => ready9

/-- The packets' numbers and queues in order, and the tie bit. -/
def fetchedOrder (r : Res) : List (Nat × Nat) × Bool :=
  match r with
  | .next t => (t.qs.packets.map fun p => (p.id, p.q), t.qs.sessTie)
  | _ => ([], false)

/-- The tie of R95: port 0's batch first, then port 1's; and the queue's turn with WEIGHT 1. -/
theorem test_fetchTie :
    fetchedOrder (exec (.fetchBatch 9 [[0]]) (tied9 false)) = ([(0, 3), (1, 3), (2, 9)], true) ∧
      fetchedOrder (exec (.fetchBatch 9 [[0]]) (tied9 true)) = ([(0, 9), (1, 3), (2, 3)], false) ∧
      (tied9 false).qs.fetchTurn = [(0, (3, 1))] ∧ ready2.fetchPick 0 = some 3 := by decide +kernel

/-- The packet waits in queue 3 of `ringed`, both pairs serving, engine on. -/
def queued (w : List Word) : State :=
  ({ ringed with qs := { ringed.qs with packets := [{ pkt 0 0 [] with words := w, state := .fetched }] } }.setReg Reg.concStatus
    0x50000000).setReg Reg.devStatus 0xC0000000

/-- A completion held for queue 4, and for the same in device memory. -/
def heldOne (mem noIrq : Bool) : State :=
  let s := ringed.setQueue 4 { ringed.queue 4 with mem, tail := 15, head := 1 }
  { s with qs := { s.qs with held := [{ cq := 4, status := 0, tag := 9, session := 0, reason := 0, time := 5, vals := [1, 2, 3, 4], noIrq, crossedAt := none }] } }

/-- Witnesses of `DispatchAndCompletion`: an unknown opcode to DEFAULT_CQ, a bad CQ, a reserved parameter, a NOP that
starts, a FENCE, and completions written to the bus and to memory at the wrap. -/
theorem test_dispatchAndCompletion :
    lastDone (exec (.packetDispatch 3) (queued [0x02, 0x00041234])) = (0x14, 0x0207, [0, 0, 0, 0]) ∧
      lastDone (exec (.packetDispatch 3) (queued [0, 0x00091234])) = (0x15, 0x0702, [0, 0xFF, 0, 0]) ∧
      lastDone (exec (.packetDispatch 3) (queued [0, 0x00041234, 0, 0, 1])) = (0x15, 0x0709, [0, 0, 0, 0]) ∧
      after (exec (.packetDispatch 3) (queued [0, 0x00041234])) (fun t =>
        (t.ctx { pair := 0, slot := 0 }).packet == some 7 && t.reg Reg.dispatched == 1) ∧
      after (exec (.packetDispatch 3) ((queued [0, 0x00041234]).setReg Reg.concStatus 0)) (fun t => t.qs.packets.length == 1) ∧
      after (exec (.packetDispatch 3) ringed) (fun t => t == ringed) ∧
      after (exec (.completionWrite 4) (heldOne false false)) (fun t =>
        (t.queue 4).tail == 0 && !(t.queue 4).phase && t.out.length == 2 && (t.ist 100).pend) ∧
      after (exec (.completionWrite 4) (heldOne true true)) (fun t => t.out.length == 1 && !(t.ist 100).pend) := by decide +kernel

/-- Both pairs serve and a NOP packet runs in context 2 of pair 0, as this context, with this microword at 0x200 of the
control store. -/
def cpAt (mop : Nat) (m : Mw) (x : Context) : State :=
  let s := inCtx (on.setReg Reg.concStatus 0x50000000) (pkt 0x00 0 [5])
  { s.setCtx cx { x with packet := some 7 } with conc := { (s.setCtx cx { x with packet := some 7 }).conc with
      vendor := List.replicate 0x200 0 ++ [m.word mop] } }

/-- A microword. -/
def mw (d s i : Nat) : Mw := { dst := BitVec.ofNat 4 d, src := BitVec.ofNat 4 s, imm := BitVec.ofNat 18 i }

/-- The context after a command. -/
def ctxOf (r : Res) : Context :=
  match r with
  | .next t => t.ctx cx
  | _ => Context.reset

/-- Registers 1 to 3 and an address. -/
def ready3 : Context := { Context.reset with pc := 0x200, g := [(1, 5), (2, 7), (3, 0x80000000)] }

/-- Witnesses of `ContextMicrowords`. -/
theorem test_contextMicrowords :
    (let s := cpAt 0x04 (mw 1 2 0) ready3
     s.executes cx ∧ s.fetches cx ((mw 1 2 0).word 0x04) ∧ (s.routine cx).mayFetch ∧ Obligations.microcycles s cx 0x04 0 = 1) ∧
      (ctxOf (exec (.microNop cx (mw 0 0 0)) (cpAt 0x00 (mw 0 0 0) ready3))).pc = 0x201 ∧
      (ctxOf (exec (.add cx (mw 1 2 0)) (cpAt 0x04 (mw 1 2 0) ready3))).gReg 1 = 12 ∧
      (ctxOf (exec (.add cx (mw 1 2 0)) (cpAt 0x05 (mw 1 2 0) ready3))).gReg 1 = 5 ∧
      (ctxOf (exec (.sub cx (mw 1 2 0)) (cpAt 0x05 (mw 1 2 0) ready3))).n ∧
      (ctxOf (exec (.movi cx (mw 4 0 0x3FFFF)) (cpAt 0x01 (mw 4 0 0x3FFFF) ready3))).gReg 4 = 0x3FFFF ∧
      (ctxOf (exec (.movhi cx (mw 2 0 16383)) (cpAt 0x02 (mw 2 0 16383) ready3))).gReg 2 = 0xFFFC0007 ∧
      (ctxOf (exec (.addi cx (mw 1 0 0x3FFFF)) (cpAt 0x09 (mw 1 0 0x3FFFF) ready3))).gReg 1 = 4 ∧
      (ctxOf (exec (.sar cx (mw 3 0 31)) (cpAt 0x0C (mw 3 0 31) ready3))).gReg 3 = 0xFFFFFFFF ∧
      (ctxOf (exec (.shl cx (mw 1 0 31)) (cpAt 0x0A (mw 1 0 31) ready3))).gReg 1 = 0x80000000 ∧
      (ctxOf (exec (.cmp cx (mw 1 1 0)) (cpAt 0x0D (mw 1 1 0) ready3))).z ∧
      (ctxOf (exec (.jz cx (mw 0 0 0x300)) (cpAt 0x11 (mw 0 0 0x300) ready3))).pc = 0x201 ∧
      (ctxOf (exec (.jmp cx (mw 0 0 0xE00F)) (cpAt 0x10 (mw 0 0 0xE00F) ready3))).pc = 0xE00F := by decide +kernel

theorem test_callsAndWaits :
    (ctxOf (exec (.call cx (mw 0 0 0x300)) (cpAt 0x15 (mw 0 0 0x300) ready3))).stack = [0x201] ∧
      (ctxOf (exec (.ret cx (mw 0 0 0)) (cpAt 0x16 (mw 0 0 0) { ready3 with stack := [0x40] }))).pc = 0x40 ∧
      (ctxOf (exec (.wait cx (mw 0 0 2)) (cpAt 0x29 (mw 0 0 2) ready3))).waiting = some 2 ∧
      (ctxOf (exec (.waitResume cx 1) (cpAt 0 (mw 0 0 0) { ready3 with waiting := some 2 }))).waiting = none ∧
      (ctxOf (exec (.waitResume cx 1) (cpAt 0 (mw 0 0 0) ready3))).waiting = none := by decide +kernel

/-- A Loggia packet at this microword. -/
def loggiaAt (w : Word) : State :=
  let s := inCtx ((on.setReg Reg.concStatus 0x50000000).setReg Reg.loggia 0x40000000) (pkt 0xE0 0 [])
  let t := s.setCtx cx { ready3 with pc := 0xE010, packet := some 7, loggia := true }
  { t with conc := { t.conc with store := List.replicate 16 0 ++ [w], attr := List.replicate 16 2 } }

/-- The Loggia calls a service entry: the result of most is open, the address is not; 0x0104 gives device time (Table 15-8). -/
theorem test_serviceCall :
    (ctxOf (exec (.call cx (mw 0 0 0x0104))
      { loggiaAt ((mw 0 0 0x0104).word 0x15) with time := { on.time with now := 0x500000009 } })).g = [(0, 9), (1, 5), (2, 7), (3, 5)] ∧
      (loggiaAt ((mw 0 0 0x0100).word 0x15)).fetches cx ((mw 0 0 0x0100).word 0x15) ∧
      (ctxOf (exec (.call cx (mw 0 0 0x0100)) (loggiaAt ((mw 0 0 0x0100).word 0x15)))).pc = 0xE011 := by
  refine ⟨?_, ?_, ?_⟩
  · decide +kernel
  · decide +kernel
  · rfl

/-- A packet whose context has the POOL[0] buffer open as a window of 16 bytes, and handles in registers. -/
def winCtx : Context :=
  { ready3 with g := [(1, 1), (2, 4), (3, 12)], window := some (pooled.bufAddr 0, 16), a := [(0, 0x10)] }
def winState : State :=
  let s := inCtx (pooled.setReg Reg.concStatus 0x50000000) (pkt 0x00 0 [5])
  (s.setCtx cx { winCtx with packet := some 7 }).store (pooled.bufAddr 0 + 4) (bytesOfWords [0xCAFE0001])

/-- A state with this microword at 0x200 of the control store. -/
def holding (mop : Nat) (m : Mw) (s : State) : State :=
  { s with conc := { s.conc with vendor := List.replicate 0x200 0 ++ [m.word mop] } }

/-- The same with its word in the journal, or on a poisoned line. -/
def winJournal : State := winState.setCtx cx { winState.ctx cx with journal := [{ isBuf := true, addr := pooled.bufAddr 0 + 4, data := 9 }] }
def winPoison : State := { winState with mem := winState.mem.poison (pooled.bufAddr 0) }

/-- Witnesses of `MemoryMicrowords`. -/
theorem test_memoryMicrowords :
    (ctxOf (exec (.lda cx (mw 3 2 0)) (holding 0x18 (mw 3 2 0) winState))).aReg 3 = 4 ∧
      (ctxOf (exec (.rd cx (mw 5 0 0) 48) (holding 0x19 (mw 5 0 0) winState))).pc = 0x201 ∧
      (ctxOf (exec (.rd cx (mw 5 0 0) 48) (holding 0x19 (mw 5 0 0)
        (winState.setCtx cx { winState.ctx cx with a := [(0, Reg.scratch 0)], globals := [(Reg.scratch 0, 77)] })))).gReg 5 = 77 ∧
      (ctxOf (exec (.wr cx (mw 0 1 0)) (holding 0x1A (mw 0 1 0) winState))).journal.length = 1 ∧
      (ctxOf (exec (.rdp cx (mw 5 0 4)) (holding 0x1B (mw 5 0 4) winState))).gReg 5 = 5 ∧
      (ctxOf (exec (.val cx (mw 0 2 3)) (holding 0x1C (mw 0 2 3) winState))).vals.get 3 0 = 4 ∧
      (ctxOf (exec (.bwin cx (mw 2 1 508) 3) (holding 0x1D (mw 2 1 508) winState))).window = some (pooled.bufAddr 0 + 4, 508) ∧
      lastDone (exec (.bwin cx (mw 2 1 (5 * 16384 + 509)) 3) (holding 0x1D (mw 2 1 (5 * 16384 + 509)) winState)) =
        (0x15, 0x0301, [0, 5, 0, 0]) ∧
      (ctxOf (exec (.brd cx (mw 5 2 0) 9) (holding 0x1E (mw 5 2 0) winState))).gReg 5 = 0xCAFE0001 ∧
      (ctxOf (exec (.brd cx (mw 5 2 0) 9) (holding 0x1E (mw 5 2 0) winJournal))).gReg 5 = 9 ∧
      winPoison.mem.poisonIn (pooled.bufAddr 0 + 4) 4 ∧
      (ctxOf (exec (.bwr cx (mw 3 2 0)) (holding 0x1F (mw 3 2 0) winState))).journal.length = 1 ∧
      (ctxOf (exec (.lwr cx (mw 1 2 0)) (holding 0x21 (mw 1 2 0) winState))).scratch.get 1 0 = 4 ∧
      (ctxOf (exec (.lrd cx (mw 5 1 0)) (holding 0x20 (mw 5 1 0) winState))).gReg 5 = 0 := by decide +kernel

/-- The window context with a journal of one buffer word and value word 1 set. -/
def keyState : State :=
  winState.setCtx cx { winState.ctx cx with journal := [{ isBuf := true, addr := pooled.bufAddr 0 + 8, data := 0x11 }], vals := [(1, 6)] }

/-- An ENC_FRAME whose firmware hands it over. -/
def handState : State :=
  let s := inCtx (code9.setReg Reg.concStatus 0x50000000) (pkt 0x20 9 [0x60000001, 0, 256])
  s.setCtx cx { ready3 with packet := some 7 }

/-- Witnesses of `KeystoneMicrowords`. -/
theorem test_keystoneMicrowords :
    (ctxOf (exec (.key cx (mw 0 0 0) 5) (holding 0x28 (mw 0 0 0) keyState))).lastKey = 0x200 ∧
      after (exec (.key cx (mw 0 0 0) 5) (holding 0x28 (mw 0 0 0) keyState))
        (fun t => t.loadW (pooled.bufAddr 0 + 8) == 0x11 && (t.ctx cx).journal.isEmpty) ∧
      lastDone (exec (.done cx (mw 0 1 0x110) 5) (holding 0x2A (mw 0 1 0x110) keyState)) = (0x10, 1, [0, 6, 0, 0]) ∧
      framesAfter (exec (.hand cx (mw 0 0 0) 5) (holding 0x2B (mw 0 0 0) handState)) = [(7 * 4096, 9, true)] ∧
      lastDone (exec (.done cx (mw 0 0 1) 5) (holding 0x2A (mw 0 0 1) handState)) = (1, 0, [0, 0, 0, 0]) ∧
      after (exec (.done cx (mw 0 0 1) 5) (holding 0x2A (mw 0 0 1) handState)) (fun t => (t.session 9).crossings == 1) := by
  decide +kernel

theorem test_loggiaCustom :
    (loggiaAt ((mw 0 1 0).word 0x2A)).executes cx ∧
      lastDone (exec (.loggiaCustom cx) (loggiaAt ((mw 0 1 0).word 0x2A))) = (0x17, 0x0708, [0, 0, 0, 0]) ∧
      lastDone (exec (.loggiaCustom cx) ((loggiaAt ((mw 0 1 0).word 0x2A)).setHolder 0 1)) = (0, 0, [0, 0, 0, 0]) ∧
      lastDone (exec (.loggiaCustom cx) ((loggiaAt ((mw 0 1 0x14).word 0x2A)).setHolder 0 1)) = (0x14, 5, [0, 0, 0, 0]) ∧
      (ctxOf (exec (.loggiaCustom cx) (loggiaAt ((mw 0 0 0).word 0x28)))).lastKey = 0xE010 ∧
      (ctxOf (exec (.loggiaCustom cx) (loggiaAt ((mw 0 0 3).word 0x29)))).waiting = some 3 := by decide +kernel

/-- An event routine ends. -/
theorem test_eventDone :
    (let c : Ctx := { pair := 1, slot := 7 }
     let s := (holding 0x2A (mw 0 0 0) (on.setReg Reg.concStatus 0x50000000)).setCtx c ready3
     s.executes c ∧ after (exec (.done c (mw 0 0 0) 0) s) (fun t => t.ctx c == Context.reset)) := by decide +kernel

/-- A semaphore of pair 0, and the pair in SELF_TEST. -/
def pairHolds : State := (cpAt 0 (mw 0 0 0) ready3).setHolder 5 0x81
def testing0 : State := on.setReg Reg.concStatus 0x60000000

/-- Where a context at this microword has ended its packet: its completion. -/
def faulted (i : Instr) (mop : Nat) (m : Mw) (x : Context) : Nat × Nat × List Word := lastDone (exec i (cpAt mop m x))

/-- Witnesses of `MicrowordFaults`. -/
theorem test_microwordFaults :
    (cpAt 0 (mw 0 0 0) ready3).classOf (reportOf 0x0500 0x0502 none) = 1 ∧
      faulted (.movhi cx (mw 0 0 16384)) 0x02 (mw 0 0 16384) { ready3 with lastKey := 9 } = (0x20, 0, [9, 0, 0, 0]) ∧
      faulted (.brd cx (mw 5 3 0) 0) 0x1E (mw 5 3 0) ready3 = (0x20, 0, [0, 0, 0, 0]) ∧
      faulted (.done cx (mw 0 0 0x19) 0) 0x2A (mw 0 0 0x19) ready3 = (0x20, 0, [0, 0, 0, 0]) ∧
      faulted (.jmp cx (mw 0 0 0xE010)) 0x10 (mw 0 0 0xE010) ready3 = (0x20, 0, [0, 0, 0, 0]) ∧
      faulted (.ret cx (mw 0 0 0)) 0x16 (mw 0 0 0) { ready3 with pc := 0xC000, stack := [5] } = (0x20, 0, [0, 0, 0, 0]) ∧
      regOf (exec (.ret cx (mw 0 0 0)) (cpAt 0x16 (mw 0 0 0) { ready3 with lastKey := 0x123 })) Reg.lastAbort = 0x01230002 ∧
      regOf (exec (.ret cx (mw 0 0 0)) (cpAt 0x16 (mw 0 0 0) { ready3 with watchdog := 4096 })) Reg.lastAbort = 1 ∧
      regOf (exec (.watchdogExpiry cx) (cpAt 0 (mw 0 0 0) { ready3 with watchdog := 4097 })) Reg.lastAbort = 1 ∧
      after (exec (.watchdogExpiry cx) (cpAt 0 (mw 0 0 0) { ready3 with ranAt := on.cyc }))
        (fun t => t == cpAt 0 (mw 0 0 0) { ready3 with ranAt := on.cyc }) ∧
      lastDone (exec (.jmp cx (mw 0 0 0xE00F)) (loggiaAt ((mw 0 0 0xE00F).word 0x10))) = (0x16, 0x0608, [0, 0, 0, 0]) ∧
      lastDone (exec (.hand cx (mw 0 0 0) 0) (loggiaAt ((mw 0 0 0).word 0x2B))) = (0x16, 0x0608, [0, 0, 0, 0]) ∧
      after (exec (.movhi cx (mw 0 0 16384)) on) (fun t => t == on) := by decide +kernel

theorem test_pairMismatch :
    holderOf (exec (.pairMismatch 0) pairHolds) 5 = 0 ∧
      regOf (exec (.pairMismatch 0) pairHolds) Reg.concStatus = 0x60010000 ∧
      regOf (exec (.pairSelfTestEnd 0 true) testing0) Reg.concStatus = 0x50000000 ∧
      regOf (exec (.pairSelfTestEnd 0 false) testing0) Reg.concStatus = 0x70000000 ∧
      after (exec (.pairSelfTestEnd 1 false) testing0) (fun t => t == testing0) := by decide +kernel

/-- A transfer of 8,192 bytes from bus 0xF00 to buffer memory, and channel 5 running it as the kick of packet 7. -/
def xfer9 : Xfer :=
  { barrier := false, irq := false, srcBus := true, dstBus := false, src := 0xF00, dst := 0x8000, len := 8192, issued := 0, written := 0, pins := [] }
def runs5 (x : Option Xfer) (left : Nat) : State :=
  let s := inCtx pooled { kick5 with state := .kick 5 }
  s.setChan 5 { Channel.reset with assigned := true, owner := 0, state := 1, kicks := [7], left, xfer := x, desc := pooled.bufAddr 0, descBuf := 0 }

/-- The channel after a command. -/
def chanAfter (r : Res) (n : Nat) : Channel :=
  match r with
  | .next t => t.chan n
  | _ => Channel.reset

/-- `runs5` with these words as its next descriptor. -/
def descIs (ws : List Word) : State := (runs5 none 1).store (pooled.bufAddr 0) (bytesOfWords ws)

/-- The PF's CH_SEL names channel 5. -/
def sel5 (s : State) : State := s.setWindow 1 Reg.chSel ⟨5, []⟩

/-- Witnesses of `ChannelTransfers`: arbitration, with and without a starved channel, and returning segments. -/
theorem test_segments :
    (let s := (runs5 (some xfer9) 1).setChan 4 { (runs5 (some xfer9) 1).chan 5 with prio := 2 }
     ((chanAfter (exec .channelArbiterDecision s) 4).xfer.map (·.issued)) = some 256 ∧
       (chanAfter (exec .channelArbiterDecision s) 5).starve = 1) ∧
      (let s := (runs5 (some xfer9) 1).setChan 4 { (runs5 (some xfer9) 1).chan 5 with starve := 255 }
       regOf (exec .channelArbiterDecision s) Reg.dmaArbCfg &&& 0x80FF0000 = 0x80040000) ∧
      (chanAfter (exec (.segmentReturn 5 (List.replicate 256 1)) (runs5 (some { xfer9 with issued := 256 }) 1)) 5).xfer.map (·.written) = some 256 ∧
      after (exec (.segmentReturn 5 []) (runs5 (some { xfer9 with issued := 256 }) 1)) (fun t => (t.chan 5).xfer == some { xfer9 with issued := 256 }) ∧
      (chanAfter (exec (.segmentReturn 5 []) (runs5 (some { xfer9 with issued := 64, len := 64, srcBus := false }) 1)) 5).xfer.map (·.written) = some 64 ∧
      (let s := runs5 (some { xfer9 with issued := 64, len := 64, srcBus := false }) 1
       (chanAfter (exec (.segmentReturn 5 []) { s with mem := s.mem.poison 0xF00 }) 5).retried = 1) := by decide +kernel

theorem test_descriptors :
    (chanAfter (exec (.descriptorLoad 5) (descIs [0x00028000, 100, 0x1000, 0, 0x2000, 0, 0, 0])) 5).xfer.map (·.len) = some 100 ∧
      (chanAfter (exec (.descriptorLoad 5) (descIs [0x08028000, 100, 0x1000, 0, 0x2000, 0, 0, 0])) 5).state = 2 ∧
      (chanAfter (exec (.descriptorLoad 5) (descIs [0x40000000, 0, 1, 64, 0, 0, 0, 0])) 5).links = 1 ∧
      (chanAfter (exec (.descriptorLoad 5) (descIs [0x00028001, 100, 0x1000, 0, 0x2000, 0, 0, 0])) 5).haltCause = 2 ∧
      lastDone (exec (.descriptorLoad 5) (descIs [0x00028000, 0, 0x1000, 0, 0x2000, 0, 0, 0])) = (0x15, 0x0301, [0, 1, 0, 0]) ∧
      (let s := descIs [0x40000000, 0, 1, 64, 0, 0, 0, 0]
       (chanAfter (exec (.descriptorLoad 5) (s.setChan 5 { s.chan 5 with links := 63 })) 5).haltCause = 3) ∧
      lastDone (exec (.descriptorLoad 5) (descIs [0x40000000, 1, 1, 64, 0, 0, 0, 0])) = (0x15, 0x0301, [0, 1, 0, 0]) ∧
      lastDone (exec (.descriptorLoad 5) (descIs [0x40000000, 0, 2, 64, 0, 0, 0, 0])) = (0x18, 0x0302, [0, 1, 0, 0]) ∧
      (let s := descIs []
       (chanAfter (exec (.descriptorLoad 5) (s.setChan 5 { s.chan 5 with desc := pooled.bufAddr 0 + 512 })) 5).haltCause = 2) := by
  decide +kernel

theorem test_channelEnds :
    lastDone (exec (.transferComplete 5) (runs5 (some { xfer9 with issued := 8192, written := 8192 }) 1)) = (0, 0, [1, 8192, 0, 0]) ∧
      (chanAfter (exec (.transferComplete 5) (runs5 (some { xfer9 with issued := 8192, written := 8192, irq := true }) 2)) 5).left = 1 ∧
      (let s := (runs5 (some { xfer9 with issued := 64 }) 1).setReg Reg.chRetry 1
       (chanAfter (exec (.busError 5 false) s) 5).retried = 1 ∧
         lastDone (exec (.busError 5 false) (s.setReg Reg.chRetry 0)) = (0x20, 0, [0, 0, 0, 0]) ∧
         s.classOf (s.chanReport 5 0x0601 2) = 1 ∧ s.classOf (s.chanReport 5 0x0603 0) = 1) ∧
      (outOf (exec (.stagingParityError 5) (runs5 (some { xfer9 with issued := 64 }) 1))).length = 1 ∧
      (chanAfter (exec (.clear (.fn pf0) 0x80000000) (sel5 (chan5 3))) 5).state = 0 ∧
      eventsOf (exec (.stop (.fn pf0) 0x40000000) (sel5 ((chan5 0).setChan 5 { (chan5 0).chan 5 with owner := 64 }))) = 1 ∧
      lastDone (exec (.stop (.fn pf0) 0x40000000) (sel5 (runs5 none 1))) = (0x20, 0, [0, 0, 0, 0]) ∧
      (chanAfter (exec (.stop (.fn pf0) 0x40000000) (sel5 (runs5 (some { xfer9 with issued := 64 }) 1))) 5).stopping := by decide +kernel

/-- The state a command answers. -/
def thenState (r : Res) (s : State) : State :=
  match r with
  | .next t => t
  | _ => s

/-- The encode session admitted on group 0, and a frame of it waiting: packet 7. -/
def home9 : State := thenState (exec (.consistencyCheck 9) (checkOf enc9)) pooled
def waiting9 : State :=
  thenState (exec (.encFrame cx) (inCtx home9 (pkt 0x20 9 [0x60000001, 0, 256]))) pooled

/-- The same where its session drops late frames, the frame being due at tick 5. -/
def drop9 : State :=
  let s := waiting9.setSession 9 { waiting9.session 9 with cfg := (waiting9.session 9).cfg.set 2 0x80102040 }
  s.setFrames (s.span.frames.map fun f => { f with deadline := 5 })

/-- A slot of session 9 on encode group 0, whole round, in both banks; SEM[0] held by port 0. -/
def slotWords : List Word := [0x80000009, 0, 100000]
def slot9 : State :=
  let s := waiting9.setHolder 0 1
  { s with span := { s.span with ticks := 100000, slots := [(0, slotWords), (64, slotWords)] } }
def slotIn (bank : Word) : State :=
  (((slot9.setReg Reg.slotSel (bank * 64 + 3)).setReg (Reg.slotData 0) 0).setReg (Reg.slotData 1) 0).setReg (Reg.slotData 2) 0

/-- A NAL unit that holds a picture. -/
def base9 : UnitItem := { part := .picture, base := true, bytes := 90 }

/-- A burst picture on span 0 with rows left. -/
def row9 : State :=
  let s := thenState (exec (.decBurst cx [[base9]]) (inCtx list9 (pkt 0x32 9 [1, 1, 0, 1, 0x800000FF, 0x10000, 0]))) pooled
  s.setFrames (s.span.frames.map fun f => { f with stage := .granted })

/-- Holder of encode group 0 of size 1, and whether frame 7's is granted. -/
def heldBy0 (r : Res) : Option Nat × Bool :=
  match r with
  | .next t => ((t.group (groupKey .enc 0 0)).holder, t.span.frames.any fun f => f.stage == .granted)
  | _ => (none, false)

/-- Witnesses of `SlotsAndDecisions`: decisions. -/
theorem test_decisions :
    waiting9.canDecide .enc 0 0 ∧ (waiting9.waitingOn .enc 0 0).length = 1 ∧ waiting9.claimOn .enc 0 0 = none ∧
      heldBy0 (exec (.schedulerDecision .enc 0 0) waiting9) = (some (7 * 4096), true) ∧
      (slot9.claimOn .enc 0 0).isSome ∧ heldBy0 (exec (.schedulerDecision .enc 0 0) slot9) = (some (7 * 4096), true) ∧
      after (exec (.schedulerDecision .enc 0 1) waiting9) (fun t => t == waiting9) ∧
      (drop9.waitingOn .enc 0 0).any drop9.mustDrop ∧
      lastDone (exec (.schedulerDecision .enc 0 0) drop9) = (0x22, 0, [0, 0, 0, 0]) ∧
      lastDone (exec (.deadlineDrop (7 * 4096)) { drop9 with time := { drop9.time with now := 6 } }) = (0x22, 0, [0, 0, 0, 0]) ∧
      after (exec (.deadlineDrop (7 * 4096)) drop9) (fun t => t == drop9) ∧
      row9.canDecide .dec 0 0 ∧
      regOf (exec (.schedulerDecision .dec 0 0) row9) Reg.burstRows = 1 := by decide +kernel

theorem test_slots :
    slot9.admits (.fn pf0) Reg.slotCtrl ∧
      eventsOf (exec (.swap (.fn pf0) 0x80000000) (slot9.setHolder 0 0)) = 1 ∧
      (let s := slotIn 1
       after (exec (.slotWrite (.fn pf0) 0x40000000) s) (fun t => t.slot 1 3 == [0, 0, 0] && t.span.slots.length == 3)) ∧
      (let s := (slotIn 1).setReg (Reg.slotData 0) 0x80000009
       regOf (exec (.slotWrite (.fn pf0) 0x40000000) s) Reg.slotCtrl = 0x10000506) ∧
      (let s := (slotIn 0).setReg Reg.slotSel 0
       after (exec (.slotWrite (.fn pf0) 0x40000000) s) (fun t => t.span.deferred.length == 1)) ∧
      after (exec (.swap (.fn pf0) 0x80000000) slot9) (fun t => t.span.swapAt == some 0) ∧
      after (exec (.slotWindowOpen 0) slot9) (fun t => t.span.claims == [{ slot := 0, frame := 7 * 4096, words := slotWords, stop := 100000 }]) ∧
      after (exec (.slotWindowOpen 1) slot9) (fun t => t == slot9) := by decide +kernel

theorem test_rounds :
    after (exec .roundBoundary slot9) (fun t => t == slot9) ∧
      (let s := { slot9 with span := { slot9.span with swapAt := some 5, deferred := [(1, [0, 0, 0])], next := some (7, 200000, 100000) }, time := { slot9.time with now := 100000 } }
       after (exec .roundBoundary s) (fun t => t.activeBank == 1 && t.span.ticks == 200000 && t.span.swapAt.isNone)) ∧
      (let s := { slot9 with span := { slot9.span with swapAt := some 5, slots := [(64, [0x80000008, 0, 100000])] }, time := { slot9.time with now := 100000 } }
       after (exec .roundBoundary s) (fun t => t.activeBank == 0 && t.regB Reg.slotCtrl 28)) := by decide +kernel

/-- The frame of `waiting9` granted with its Vestibule awake, and conditioned. -/
def granted9 : State :=
  let s := thenState (exec (.schedulerDecision .enc 0 0) waiting9) pooled
  { s with span := { s.span with gatedVb := [], gatedMz := [] } }
def cond9 : State := thenState (exec (.conditioningRow 0) granted9) pooled
def id9 : Nat := 7 * 4096
def first9 (s : State) : Frame := (s.frame? id9).getD (Frame.ofPacket (pkt 0 0 []) 0 false)

/-- What lane A makes of its one row: an intra block of 64 × 64 samples in four transforms, a parameter set and a slice of 128 bits. -/
def flat9 (h w : Nat) : List (List Nat) := List.replicate h (List.replicate w 128)
def block9 : Block := { x := 0, y := 0, w := 64, h := 64, coding := .intra .dc,
                        transforms := List.replicate 4 { w := 32, h := 32, across := .dct, down := .dct, lfnst := false, optimised := true } }
def recon9 : Samples := { y := flat9 64 64, cb := flat9 32 32, cr := flat9 32 32 }
def set9 : List Byte := [0, 0, 1, 0x40, 1]
def slice9 : List Byte := [0, 0, 1, 0x26, 1, 0, 0, 0, 0, 0, 0]
def lane9 : Lane :=
  { heads := [set9], header := 0, streams := [slice9.flatMap bitsOfByte], blocks := [block9],
    trials := [{ block := block9, recon := recon9, rate := 0 }],
    bottom := { y := flat9 1 128, cb := flat9 1 64, cr := flat9 1 64 }, coder := List.replicate 272 0, sync := [] }

/-- Its one step's content of 16 bytes, and the frame in its tail. -/
def content9 : List StepContent :=
  [{ heads := [.parameterSet], units := [set9, slice9], recon := recon9 }]
def tail9 : State := thenState (exec (.pierReached id9 0 lane9 none false) cond9) pooled

theorem test_encodeRows :
    (granted9.vbCurrent 0).isSome ∧ (first9 cond9).condRows = 1 ∧ (first9 cond9).conditioned ∧
      (let f := first9 cond9
       cond9.inGf = false ∧ f.decode = false ∧ f.noAnalysis = false ∧ f.cost = none ∧ (cond9.session 9).vb = some 0 ∧
         cond9.span.mzOut = [] ∧ cond9.span.gatedMz = [] ∧ (cond9.session 9).analyses.map (·.1) = [0]) ∧
      after (exec (.mezzanineAnalysis id9 [] []) cond9) (fun t => (first9 t).cost == none && (t.session 9).costs == []) ∧
      (cond9.frame? id9).isSome ∧
      after (exec (.pierReached id9 0 lane9 none false) granted9) (fun t => t == granted9) ∧
      granted9.replays (first9 granted9) false = false ∧
      after (exec (.pierReached id9 0 lane9 none true) granted9) (fun t =>
        (first9 t).abortAt == some 0x20 && t.reg Reg.parityErrors == 1 && t.fc.hist.map (·.2.code) == [0x0702]) ∧
      after (exec (.conditioningRow 1) granted9) (fun t => t == { granted9 with span := { granted9.span with vbTurn := [(0, 28673), (1, 0)] } }) ∧
      (let s := { granted9 with span := { granted9.span with gatedVb := [0] } }
       after (exec (.conditioningRow 0) s) (fun t => t == s)) ∧
      (first9 tail9).stage = .tail ∧ (tail9.group (groupKey .enc 0 0)).holder = none := by decide +kernel

/-- The costs that a Mezzanine's analysis of that frame computes. -/
theorem test_mezzanineCosts : ∃ intra inter, intra = (cond9.session 9).intraCosts (first9 cond9) ∧
    inter = cond9.interCosts (first9 cond9) := ⟨_, _, rfl, rfl⟩

/-- Frame 7 in its tail while it is closed, late, or its writer waits. -/
def stuck9 : State := granted9.setFrame { first9 granted9 with stalled := [(0, [10000000])] }
def run9 (g : StepRun → StepRun) : State := tail9.setFrame { first9 tail9 with run := (first9 tail9).run.map g }

/-- Witnesses of `EncodePipeline`. -/
theorem test_encodeCrossing :
    tail9.crossReady (first9 tail9) content9 ∧ tail9.crossesNext (first9 tail9) ∧
      lastDone (exec (.crossing id9 content9 none) tail9) = (0, 0, [128, 0xFFFFFFFF, 30, 0]) ∧
      after (exec (.crossing id9 content9 none) tail9) (fun t => (t.flow 72).frames.length == 1 &&
        ((t.flow 72).frames.map (·.streams)) == [[16]] && (t.session 9).crossings == 1 && ((t.session 9).vis.get 0 []).length == 1) ∧
      (let s := run9 fun r => { r with closed := some 0 }
       lastDone (exec (.crossing id9 content9 none) s) = (3, 0, [128, 0, 30, 0])) ∧
      (let s := tail9.setFrame { first9 tail9 with deadline := 5 }
       lastDone (exec (.crossing id9 content9 none) { s with time := { s.time with now := 6 } }) = (2, 0, [128, 0xFFFFFFFF, 30, 0])) ∧
      after (exec (.crossing id9 [] none) tail9) (fun t => (first9 t).stage == .tail && t.qs == tail9.qs) := by decide +kernel

theorem test_encodeEnds :
    (let s := cond9.setFrame { first9 cond9 with abortAt := some 0x20 }
     lastDone (exec (.pierReached id9 0 lane9 none false) s) = (0x20, 0, [0, 0, 0, 0])) ∧
      lastDone (exec (.writerWait 72) stuck9) = (0x20, 0, [0, 0, 0, 0]) ∧
      (let s := stuck9.setFlow 72 { stuck9.flow 72 with head := some { frag := 0, payload := [1], index := 0, count := 1, first := true, last := true, frameNum := 0, pts := 0, finish := 0 } }
       after (exec (.writerWait 72) s) (fun t => (t.flow 72).waits == 1 && (t.frame? id9).isSome)) ∧
      after (exec (.writerWait 72) granted9) (fun t => t == granted9) := by decide +kernel

/-- A decode session admitted, a picture of it waiting, granted, and its one row decoded. -/
def seen9 : State := thenState (exec (.consistencyCheck 9) (checkOf dec9)) pooled
def row9End (ds : List Damage) : RowEnd := { rows := 1, damage := ds, reads := [], bottom := Samples.none, input := [] }
def taken9 : State :=
  let s := seen9.store (seen9.bufAddr (bufKey 3 0)) (bytesOfWords out9)
  let s1 := thenState (exec (.decData cx [base9]) (inCtx s (pkt 0x30 9 [1, 0, 100, 0xFF, 0x60000001, 0]))) pooled
  thenState (exec (.schedulerDecision .dec 0 0) s1) pooled
def rowed9 : State := thenState (exec (.decodeRowEnd id9 (row9End [])) taken9) pooled

/-- A black intra picture of 64 × 64, kept as a reference. -/
def pic9 : PictureInfo :=
  { sizeW := 64, sizeH := 64, depth := 8, chroma := 0, outside := false, crop := 0, disp := 0, colour := 0, seqStart := true,
    order := some 0, keep := [], isRef := true, intra := true, reads := [], first := none, vectors := [], recovery := none,
    notForOutput := false, hidden := [], shown := none, needs := [],
    pic := { y := flat9 64 64, cb := flat9 32 32, cr := flat9 32 32 }, grained := none }

/-- The same where the picture's packet is a burst of two. -/
def burst9 : State :=
  let s := rowed9.setPState 7 (.burst 2)
  s.setFrame { first9 s with burst := some (0, false), peer := some 0 }

/-- The same bound for a peer. -/
def peer9 : State := burst9.setFrame { first9 burst9 with outDesc := [] }

/-- Damage in slice data from the first unit on, up to the second or to the picture's end, or of the whole picture. -/
def sliceHole (resume : Option Nat) : Damage := { error := .sliceData, run := .units 1 1 [0] [0] 0 0 resume }

/-- Witnesses of `DecodePictures`. -/
theorem test_decodeRows :
    (taken9.group (groupKey .dec 0 0)).holder = some id9 ∧
      (first9 rowed9).stage = .tail ∧ (rowed9.group (groupKey .dec 0 0)).holder = none ∧
      after (exec (.decodeRowEnd id9 (row9End [])) rowed9) (fun t => (first9 t).rowsDone == 1) ∧
      after (exec (.decodeRowEnd id9 { row9End [] with reads := [(id9, 0)] }) taken9) (fun t => (first9 t).rowsDone == 0) ∧
      after (exec (.decodeRowEnd id9 (row9End [sliceHole none])) taken9)
        (fun t => (first9 t).flags == 0x80420000 && (first9 t).concealed == [0]) ∧
      after (exec (.decodeRowEnd id9 (row9End [{ error := .sliceHeader, run := .picture }])) taken9)
        (fun t => (first9 t).flags == 0x10800000) ∧
      after (exec (.decodeRowEnd id9 (row9End [{ error := .parameterSet, run := .nothing }])) taken9)
        (fun t => (first9 t).flags == 0x800000) ∧
      (let s := taken9.setFrame { first9 taken9 with abortAt := some 0x21 }
       lastDone (exec (.decodeRowEnd id9 (row9End [])) s) = (0x21, 0, [0, 0, 0, 0])) ∧
      (let r := { row9End [] with rows := 2 }
       after (exec (.decodeRowEnd id9 r) taken9) (fun t => (first9 t).stage == .granted && (first9 t).rowsDone == 1 && (t.group (groupKey .dec 0 0)).holder == some id9) ∧
       after (exec (.decodeRowEnd id9 r) (taken9.setFrame { first9 taken9 with burst := some (0, true) }))
         (fun t => (first9 t).stage == .granted && (t.group (groupKey .dec 0 0)).holder == none)) := by decide +kernel

theorem test_decodeCrossing :
    rowed9.pictureReady (first9 rowed9) pic9 ∧ rowed9.crossesNext (first9 rowed9) ∧
      lastDone (exec (.crossing id9 [] (some pic9)) rowed9) = (0, 0, [0, 0, 90, 0]) ∧
      after (exec (.crossing id9 [] (some pic9)) rowed9) (fun t => (t.session 9).decoded == 1 && (t.session 9).crossings == 1 &&
        ((t.session 9).vis.get 0 []).length == 1 && t.qs.packets.isEmpty) ∧
      (let s := rowed9.setFrame { first9 rowed9 with flags := 0x80420000, concealed := [0] }
       lastDone (exec (.crossing id9 [] (some pic9)) s) = (1, 0, [0, 0x80420001, 90, 0])) ∧
      (let s := rowed9.setFrame { first9 rowed9 with deadline := 5 }
       let late := { s with time := { s.time with now := 6 } }
       lastDone (exec (.crossing id9 [] (some pic9)) late) = (2, 0, [0, 0, 90, 0]) ∧
       lastDone (exec (.crossing id9 [] none) (late.setSession 9 { late.session 9 with cfg := (late.session 9).cfg.set 2 0x80102040 })) =
         (0x22, 0, [0, 0, 0, 0])) := by
  decide +kernel

theorem test_burstCrossing :
    lastDone (exec (.crossing id9 [] (some pic9)) burst9) = (0, 0, [0, 0, 0, 0]) ∧
      after (exec (.crossing id9 [] (some pic9)) burst9) (fun t => t.qs.packets.map (·.state) == [.burst 1]) ∧
      after (exec (.crossing id9 [] (some pic9)) (burst9.setPState 7 (.burst 1))) (fun t => t.qs.packets.isEmpty) ∧
      after (exec (.crossing id9 [] none) rowed9) (fun t => (first9 t).stage == .tail && (first9 t).sess == 9) ∧
      peer9.crossesNext (first9 peer9) ∧ (first9 peer9).stage = .tail ∧ (first9 peer9).burst = some (0, false) ∧
      (first9 peer9).outDesc = [] ∧ peer9.qs.packets.map (·.state) = [.burst 2] ∧
      (let pic := { pic9 with grained := some { y := flat9 64 64, cb := flat9 32 32, cr := flat9 32 32 } }
       isLost (rowed9.ownFlags (first9 rowed9) pic.toDecoded) = false ∧
         isLost (rowed9.ownFlags (first9 rowed9) { pic.toDecoded with depth := 10 })) := by
  decide +kernel

/-- Flow 72 with the frame of `content9` committed, at its head, and with tokens. -/
def sent9 : State :=
  let s := thenState (exec (.crossing id9 content9 none) tail9) pooled
  { s with time := { s.time with cycle := 1 } }
def filled9 : State :=
  let s := thenState (exec (.headLandingFill 72 none) sent9) pooled
  { s with tgRefill := some s.time.raw }
def flow72 (s : State) (g : Flow → Flow) : State := s.setFlow 72 (g (s.flow 72))
def full72 : State := flow72 filled9 fun x => { x with cons := 1 }
def haltOf (r : Res) : Nat × Nat :=
  match r with
  | .next t => ((t.flow 72).state, (t.flow 72).haltCause)
  | _ => (9, 9)

/-- Witnesses of `EgressFlows`: a payload of 16 bytes is charged 48, over weight 1. -/
theorem test_headsAndTokens :
    ((filled9.flow 72).head.map fun h => (h.payload.length, h.finish, h.first, h.last)) = some (16, 12288, true, true) ∧
      after (exec (.headLandingFill 72 none) filled9) (fun t => t.flow 72 == filled9.flow 72) ∧
      after (exec (.headLandingFill 72 (some ((sent9.flow 72).frames.map (·.num) |>.headD 0, 0))) sent9)
        (fun t => (t.flow 72).frames.isEmpty && t.reg Reg.parityErrors == 1 && (t.session 9).nextIntra) ∧
      (let s := flow72 sent9 fun x => { x with frames := x.frames.map fun o => { o with poison := [3] } }
       after (exec (.headLandingFill 72 none) s) (fun t => (t.flow 72).frames.isEmpty && (t.flow 72).lost == 1 && (t.session 9).nextIntra)) ∧
      after (exec (.headLandingFill 72 (some ((sent9.flow 72).frames.map (·.num) |>.headD 0, 0))) filled9)
        (fun t => (t.flow 72).head.isNone && (t.flow 72).lost == 1) ∧
      (let s := flow72 { filled9 with tgRefill := none } fun x => { x with tokens := 5 }
       after (exec .tokenRefill s) (fun t => (t.flow 72).tokens == 1005)) ∧
      after (exec .tokenRefill { filled9 with tgRefill := none }) (fun t => (t.flow 72).tokens == 8192 * 800000 && t.refilled) ∧
      (let s := flow72 filled9 fun x => { x with tokens := 5 }
       after (exec .tokenRefill s) (fun t => (t.flow 72).tokens == 5)) := by decide +kernel

theorem test_packetGrant :
    (filled9.wants 72 (filled9.flow 72) && !(filled9.flow 72).ringFull) ∧ filled9.flowSched 72 = 0 ∧
      after (exec (.packetGrant 0) filled9) (fun t => (t.flow 72).tokens == 8192 * 800000 - 48 * 800000 &&
        (t.flow 72).head.isNone && (t.flow 72).sending.map (·.ends) == some 3 && t.out.length == filled9.out.length + 1) ∧
      after (exec (.packetGrant 0) { filled9 with tgRefill := none }) (fun t => t.flow 72 == filled9.flow 72) ∧
      after (exec (.packetGrant 1) filled9) (fun t => t.flow 72 == filled9.flow 72) ∧
      (let s := { filled9 with tgFree := [(0, 2)] }
       after (exec (.packetGrant 0) s) (fun t => t.flow 72 == filled9.flow 72)) ∧
      (let s := flow72 filled9 fun x => { x with image := x.image.set 0 0x00030400 }
       haltOf (exec (.packetGrant 0) s) = (2, 2)) := by decide +kernel

/-- The granted packet while its body is written, and its delivery in the cycle that ends it: header and doorbell follow the body. -/
def sending9 (cycle : Nat) : State :=
  let s := thenState (exec (.packetGrant 0) filled9) pooled
  { s with pending := [], out := [], ic := { s.ic with latches := [] }, time := { s.time with cycle } }

theorem test_packetDelivery :
    (sending9 1).cyc + 1 < 3 ∧ (sending9 2).pending = [] ∧
      after (step (sending9 1)) (fun t => t.flow 72 == (sending9 1).flow 72 && t.out.isEmpty) ∧
      after (step (sending9 2)) (fun t => (t.flow 72).prod == 1 && (t.flow 72).bytesSent == 48 && (t.flow 72).sending.isNone &&
        t.out.length == 2) := by decide +kernel

theorem test_consumerIndex :
    full72.wants 72 (full72.flow 72) ∧ (full72.flow 72).ringFull ∧
      haltOf (exec (.consumerIndexRead 72 none) (full72.setRegF Reg.chRetry 0 4 0)) = (2, 1) ∧
      after (exec (.consumerIndexRead 72 none) (full72.setRegF Reg.chRetry 0 4 2)) (fun t =>
        (t.flow 72).retried == 1 && (t.flow 72).state == 1 && t.out.length == full72.out.length + 1) ∧
      haltOf (exec (.consumerIndexRead 72 (some 16)) full72) = (2, 5) ∧
      after (exec (.consumerIndexRead 72 (some 15)) full72) (fun t => (t.flow 72).cons == 15 && (t.flow 72).lastRead == some 0) ∧
      (let s := flow72 full72 fun x => { x with lastRead := some 0 }
       after (exec (.consumerIndexRead 72 (some 15)) s) (fun t => t.flow 72 == s.flow 72)) := by decide +kernel

/-- Frame 7 granted on encode span 0, in a protected session too; a second span holds no index, or is retired. -/
def struck9 (rest : List (SpanKind × Nat)) (prot : Bool) : State :=
  let s := { cond9 with span := { cond9.span with retired := rest } }
  if prot then s.setSession 9 { s.session 9 with cfg := (s.session 9).cfg.set 0 0x51002800 } else s
def allGone : List (SpanKind × Nat) := (List.range 18).filterMap fun p => if p = 0 then none else some (.enc, p)
def stageOf (r : Res) : Option FStage × Option Nat :=
  match r with
  | .next t => ((t.frame? id9).map (·.stage), (t.frame? id9).bind (·.abortAt))
  | _ => (none, none)

/-- Witnesses of `SpanFaults`: a fault with spares, without one, on a spare, and in a tail. -/
theorem test_spanFaults :
    granted9.struck .enc 0 = [first9 granted9] ∧ cond9.sparesLeft .enc = 17 ∧ (struck9 allGone false).sparesLeft .enc = 0 ∧
      cond9.classOf (Report.of (spanUnit .enc 0) 0x0101) = 1 ∧
      stageOf (exec (.spanCheckFailed .enc 0 false) cond9) = (some .granted, some 0x20) ∧
      stageOf (exec (.spanHang .enc 0) (struck9 [] true)) = (some .replayWait, none) ∧
      after (exec (.spanCheckFailed .enc 0 false) cond9) (fun t => t.span.waiting == [(.enc, 0)] && (t.physOf .enc 0).isNone) ∧
      after (exec (.spanCheckFailed .enc 0 false) (struck9 allGone false))
        (fun t => t.span.testing.map (·.inPlace) == [some 0] && t.physOf .enc 0 == some 0) ∧
      after (exec (.spanCheckFailed .enc 5 false) cond9) (fun t => t.span.testing.map (·.spare) == [true]) ∧
      after (exec (.spanCheckFailed .enc 5 true) cond9) (fun t => t.span.testing.isEmpty && t.fc.hist.map (·.2.code) == [0x0103]) ∧
      lastDone (exec (.spanCheckFailed .enc 0 false) tail9) = (0x20, 0, [0, 0, 0, 0]) ∧
      after (exec (.spanHang .enc 5) cond9) (fun t => t.fc == cond9.fc && t.span.testing.isEmpty) ∧
      after (exec (.spanCheckFailed .enc 5 false) (struck9 allGone false)) (fun t => t.fc == cond9.fc && t.span.testing.isEmpty) := by decide +kernel

/-- The index waits for its spare with frame 7 to be replayed; the span tests in place; a fault of the span escalates. -/
def spareWait : State := thenState (exec (.spanHang .enc 0) (struck9 [] true)) pooled
def spareHas : State := thenState (exec (.spareTakeover .enc 0) spareWait) pooled
def inPlace0 : State := thenState (exec (.spanCheckFailed .enc 0 false) { struck9 allGone false with span := { (struck9 allGone false).span with frames := [] } }) pooled
def escalated0 : State := thenState (exec (.spanCheckFailed .enc 5 false) cond9) pooled

/-- An injected fault of encode span 0 in this cycle. -/
def injected0 : State := (cond9.spanFault .enc 0 0x0101 (some (1, pf0))).st

theorem test_spanTests :
    ((injected0.twin (Report.of (spanUnit .enc 0) 0x0102)).isSome ∧ injected0.inTest .enc 0 ∧
      injected0.classOf (Report.of (spanUnit .enc 0) 0x0102) = 1 ∧
      after (exec (.spanHang .enc 0) injected0) (fun t => t.regF Reg.merged 0 32 == 1 && t.fc.hist.map (·.2.reaction) == [6, 2])) ∧
    spareHas.physOf .enc 0 = some 1 ∧ spareHas.span.waiting = [] ∧
      stageOf (exec (.detourReplay id9) spareHas) = (some .granted, none) ∧ regOf (exec (.detourReplay id9) spareHas) Reg.detours = 1 ∧
      stageOf (exec (.detourReplay id9) spareWait) = (some .replayWait, none) ∧
      after (exec (.spanSelfTestEnd .enc 0 true) inPlace0) (fun t => t.span.testing.isEmpty && t.physOf .enc 0 == some 0) ∧
      after (exec (.spanSelfTestEnd .enc 0 false) inPlace0)
        (fun t => t.isRetired .enc 0 && (t.physOf .enc 0).isNone && t.regB Reg.capStatus 0) ∧
      after (exec (.spanSelfTestEnd .enc 5 false) escalated0) (fun t => t.isRetired .enc 5) ∧
      after (exec (.spanSelfTestEnd .enc 6 false) escalated0) (fun t => t.span.retired.isEmpty && t.span.testing.length == 1) ∧
      (let s := { escalated0 with span := { escalated0.span with testing := [] } }
       s.classOf (Report.of (spanUnit .enc 5) 0x0101) = 2 ∧ after (exec (.spanCheckFailed .enc 5 false) s) State.inGf) := by decide +kernel

theorem test_frontEndFaults :
    stageOf (exec (.vestibuleCheckFailed 0) granted9) = (some .granted, some 0x20) ∧
      (let s := { waiting9 with span := { waiting9.span with gatedVb := [] } }
       stageOf (exec (.vestibuleCheckFailed 0) s) = (some .waiting, none)) ∧
      after (exec (.mezzanineCheckFailed 0 id9) waiting9) (fun t => (first9 t).noAnalysis && t.span.mzOut.isEmpty) ∧
      (let s := thenState (exec (.mezzanineCheckFailed 0 id9) waiting9) pooled
       after (exec (.mezzanineCheckFailed 0 id9) { s with fc := { s.fc with hist := s.fc.hist.mapVal fun h => { h with acked := false } } })
         (fun t => t.span.mzOut == [0])) ∧
      after (exec (.mezzanineCheckFailed 1 id9) waiting9) (fun t => t == waiting9) := by decide +kernel

/-- Ground Floor mode, entered with a frame waiting, a packet on its flow and a packet running. -/
def busy9 : State := { filled9 with qs := { filled9.qs with packets := [pkt 0x70 9 [0, 1, 0]] }, clk := { filled9.clk with alive := true } }
def gf9 : State := thenState (exec .securitySelfCheckFailed busy9) pooled

/-- Witnesses of `DeviceFaults`. -/
theorem test_deviceFaults :
    busy9.clk.alive ∧ gf9.inGf ∧ gf9.reg Reg.gfCause = 1 ∧ (gf9.flow 72).frames = [] ∧
      after (exec (.controlTableError 3 false) busy9) State.inGf ∧
      regOf (exec (.controlTableError 3 false) gf9) Reg.gfCause = 1 ∧
      regOf (exec (.controlTableError 3 false) gf9) Reg.headSeq = 2 ∧
      after (exec (.controlTableError 3 true) busy9) (fun t => !t.inGf && t.regF (Reg.classCount 0) 0 32 == 1) ∧
      after (exec (.controlTableError 3 true) State.reset) (fun t => t == State.reset) := by decide +kernel

theorem test_groundFloorService :
    after (exec (.groundFloorService true false) gf9) (fun t => t.qs.packets.isEmpty && !(t.session 9).en && t.pairState 0 == 1) ∧
      lastDone (exec (.groundFloorService true false) gf9) = (0x20, 0, [0, 0, 0, 0]) ∧
      after (exec (.groundFloorService false true) gf9) (fun t => t.pairState 0 == 3 && t.pairState 1 == 1) ∧
      after (exec (.groundFloorService false false) gf9) (fun t => t.fc.gfDead && t.pairState 1 == 3) ∧
      after (exec (.groundFloorService true true) busy9) (fun t => t.fc == busy9.fc && t.qs == busy9.qs) := by decide +kernel

/-- Witnesses of `OnlyResetLeavesGroundFloor`: RESET by the holder of SEM[0] and by another, and POR_N. -/
theorem test_onlyResetLeaves :
    after (exec (.reset (.fn pf0) 0x80000000) (gf9.setHolder 0 1)) (fun t => !t.inGf) ∧
      after (exec (.reset (.fn pf0) 0x80000000) gf9) State.inGf ∧
      after (exec (.porNAssert 1000) gf9) (fun t => !t.inGf) ∧ after (exec (.porNAssert 999) gf9) State.inGf := by decide +kernel

/-- A state with words queued and memory written has `Inv`, and a step that runs a command on it. -/
theorem test_inv : Inv { full9 with pending := [.nop cx], mem := { full9.mem with epoch := 0, cells := [(5, 7)] } } := by
  refine ⟨⟨by decide, ?_⟩, by decide, by decide, by decide, fun _ _ _ h => nomatch h⟩
  intro c h
  simp only [List.mem_singleton] at h
  subst h
  decide

end Sys2Proof.Tests
end

section
/-! SUPPORT. What a 4-byte write of the register window does (R4, R5, R37, R412, R417, R418): which writes reach a
register, and what a write of a register of RWS and W1C bits leaves. -/

namespace Sys2Proof.Machine

-- What an event and a raise leave of the registers ----------------------------------------------------------

theorem State.raise_reg (s : State) (n o : Nat) : (s.raise n).reg o = s.reg o := by
  rw [State.raise_frame]; rfl

theorem State.setRegF_reg_ne (s : State) (off lo len v o : Nat) (h : o ≠ off) :
    (s.setRegF off lo len v).reg o = s.reg o :=
  State.setReg_reg_ne _ _ _ _ h

theorem State.bumpSat_reg_ne (s : State) (off lo len k o : Nat) (h : o ≠ off) :
    (s.bumpSat off lo len k).reg o = s.reg o :=
  State.setReg_reg_ne _ _ _ _ h

theorem State.raiseB_reg_ne (s : State) (off i o : Nat) (h : o ≠ off) : (s.raiseB off i).reg o = s.reg o :=
  State.setReg_reg_ne _ _ _ _ h

theorem State.wakePort_reg_ne (s : State) (n o : Nat) (h : o ≠ Reg.wakeCtrl n) : (s.wakePort n).reg o = s.reg o := by
  unfold State.wakePort
  split
  · exact State.setReg_reg_ne _ _ _ _ h
  · rfl

theorem ne_of_low {off o : Nat} (h : off < 0x080000) (ho : 0x080000 ≤ o) : o ≠ off := by omega

/-- The counters that every fault moves stand below block QT. -/
theorem State.countFault_reg_high (s : State) (u c o : Nat) (hc : c ≤ 3) (ho : 0x080000 ≤ o) :
    (s.countFault u c).reg o = s.reg o := by
  unfold State.countFault
  rw [State.bumpSat_reg_ne _ _ _ _ _ _ (by simp only [Reg.kindCount]; omega),
    State.bumpSat_reg_ne _ _ _ _ _ _ (by simp only [Reg.classCount]; omega)]

theorem State.wakeBoth_reg_high (s : State) (o : Nat) (ho : 0x080000 ≤ o) :
    ([0, 1].foldl (fun st n => if st.regB (Reg.wakeCtrl n) 28 then st.wakePort n else st) s).reg o = s.reg o := by
  have wake : ∀ (t : State) (n : Nat), n ≤ 1 →
      (if t.regB (Reg.wakeCtrl n) 28 then t.wakePort n else t).reg o = t.reg o := by
    intro t n hn
    split
    · exact State.wakePort_reg_ne _ _ _ (by simp only [Reg.wakeCtrl]; omega)
    · rfl
  simp only [List.foldl_cons, List.foldl_nil]
  rw [wake _ 1 (by omega), wake _ 0 (by omega)]

/-- The record of a fault moves registers of blocks IC and FC only (R377). -/
theorem State.recordFresh_reg_high (r : Report) (s : State) (esc : Bool) (cls : Nat) (row : FaultRow) (o : Nat)
    (hc : cls ≤ 3) (ho : 0x080000 ≤ o) : (State.record.fresh r s esc cls row).st.reg o = s.reg o := by
  unfold State.record.fresh
  extract_lets h seq s1 s2 e fc s3 s4
  have h1 : s1.reg o = s.reg o := by
    dsimp only [s1]
    rw [State.setReg_reg_ne _ _ _ _ (by simp only [Reg.lastSeq]; omega), State.setReg_reg_ne _ _ _ _ (ne_of_low (by decide) ho)]
  have h2 : s2.reg o = s1.reg o := by
    dsimp only [s2]
    split
    · exact State.bumpSat_reg_ne _ _ _ _ _ _ (ne_of_low (by decide) ho)
    · rfl
  have h3 : s3.reg o = s2.reg o := by
    dsimp only [s3]
    split
    · unfold State.syncUnacked
      rw [State.setRegF_reg_ne _ _ _ _ _ _ (ne_of_low (by decide) ho),
        State.setRegF_reg_ne _ _ _ _ _ _ (ne_of_low (by decide) ho)]
      rfl
    · rw [State.raiseB_reg_ne _ _ _ _ (ne_of_low (by decide) ho),
        State.bumpSat_reg_ne _ _ _ _ _ _ (ne_of_low (by decide) ho)]
  have h4 : s4.reg o = s3.reg o := by
    dsimp only [s4]
    split
    · exact State.wakeBoth_reg_high _ _ ho
    · rfl
  rw [State.raise_reg, h4, h3, h2, h1]

theorem State.record_reg_high (s : State) (r : Report) (o : Nat) (hr : r.cls ≤ 2) (ho : 0x080000 ≤ o) :
    (s.record r).st.reg o = s.reg o := by
  unfold State.record
  extract_lets esc cls row s1 headSlot
  have hc : cls ≤ 3 := by dsimp only [cls]; split <;> omega
  have h1 : s1.reg o = s.reg o := State.countFault_reg_high _ _ _ _ hc ho
  split
  · split
    · rw [State.raise_reg]; exact h1
    · rw [State.recordFresh_reg_high _ _ _ _ _ _ hc ho, h1]
  · rw [State.recordFresh_reg_high _ _ _ _ _ _ hc ho, h1]

/-- A host-protocol event is corrected. -/
theorem protoEvent_cls : (faultRow 0x0B01).cls ≤ 2 := by decide

/-- A host-protocol event moves no register from block QT on. -/
theorem State.protoEventA_reg_high (s : State) (a : Agent) (d o : Nat) (ho : 0x080000 ≤ o) :
    (s.protoEventA a d).reg o = s.reg o := by
  cases a with
  | fn f =>
    show (s.protoEvent f.val d).reg o = s.reg o
    refine (State.record_reg_high _ _ o protoEvent_cls ho).trans (State.bumpSat_reg_ne _ _ _ _ _ _ ?_)
    have : portOf f.val < 2 := Nat.mod_lt _ (by omega)
    simp only [Reg.protoEvents]
    omega
  | cp k => exact State.record_reg_high _ _ _ protoEvent_cls ho

-- Which writes reach a register --------------------------------------------------------------------------------

theorem exec_registerWrite_word {a : Agent} {s : State} (hl : s.live a) {off : Nat} (h4 : off % 4 = 0) (v : BitVec 64) :
    exec (.registerWrite a off 4 v) s = .next (s.writeAt a off (v.extractLsb' 0 32)) := by
  show execRegisterWrite a off 4 v s = _
  simp [execRegisterWrite, hl, h4]

theorem extractLsb'_setWidth_word (v : Word) : (v.setWidth 64).extractLsb' 0 32 = v := by
  ext i hi
  simp [BitVec.getElem_extractLsb', BitVec.getLsbD_setWidth, BitVec.getLsbD_eq_getElem hi]
  omega

/-- The 4-byte write of a word. -/
theorem exec_registerWrite_setWidth {a : Agent} {s : State} (hl : s.live a) {off : Nat} (h4 : off % 4 = 0) (v : Word) :
    exec (.registerWrite a off 4 (v.setWidth 64)) s = .next (s.writeAt a off v) := by
  rw [exec_registerWrite_word hl h4, extractLsb'_setWidth_word]

theorem exec_registerWrite_badSize {a : Agent} {s : State} (hl : s.live a) {off size : Nat} (v : BitVec 64)
    (h4 : ¬(size = 4 ∧ off % 4 = 0)) (h8 : ¬(size = 8 ∧ off % 8 = 0)) :
    exec (.registerWrite a off size v) s = .next (s.protoEventA a off) := by
  show execRegisterWrite a off size v s = _
  simp [execRegisterWrite, hl, h4, h8]

/-- A write of 8 bytes is two writes, lower offset first (R418). -/
theorem exec_registerWrite_pair {a : Agent} {s : State} (hl : s.live a) {off : Nat} (h8 : off % 8 = 0) (v : BitVec 64) :
    exec (.registerWrite a off 8 v) s =
      .next ((s.writeAt a off (v.extractLsb' 0 32)).access a (off + 4) (v.extractLsb' 32 32)) := by
  show execRegisterWrite a off 8 v s = _
  simp [execRegisterWrite, hl, h8]

/-- A 4-byte write at an aligned offset, by an agent that may not be able to make one. -/
theorem exec_registerWrite_access (a : Agent) (s : State) {off : Nat} (h4 : off % 4 = 0) (v : BitVec 64) :
    exec (.registerWrite a off 4 v) s = .next (s.access a off (v.extractLsb' 0 32)) := by
  show execRegisterWrite a off 4 v s = _
  unfold execRegisterWrite State.access
  cases s.live a <;> simp [h4]

theorem exec_minStep (a : Agent) (s : State) (v : Word) : exec (.minStep a v) s = .next (s.access a Reg.stepCtrl v) := rfl

theorem State.writeAt_admitted {s : State} {a : Agent} {off : Nat} (h : s.admits a off) (v : Word) :
    s.writeAt a off v = s.regWrite a off v := if_pos h

theorem State.writeAt_dropped {s : State} {a : Agent} {off : Nat} (h : s.admits a off = false) (v : Word) :
    s.writeAt a off v = s.protoEventA a off := by
  unfold State.writeAt; simp [h]

theorem State.admits_outside {s : State} {a : Agent} {off : Nat} (h : s.inView a off = false) :
    s.admits a off = false := by
  simp [State.admits, h]

/-- Before READY a port's write of a block other than SEM, MBX, IC, TMR and QT reaches no register (R412). -/
theorem State.admits_early {s : State} {a : Agent} {off : Nat} (hr : s.ready = false) (hc : a.isCp = false)
    (hb : off / 65536 ∉ [3, 4, 5, 6, 8]) : s.admits a off = false := by
  have he : earlyBlock off = false := by simpa [earlyBlock] using hb
  simp [State.admits, hr, hc, he]

-- Registers of RWS and W1C bits ------------------------------------------------------------------------------------

theorem rwsReg_w1c_disjoint : ∀ off ∈ Obligations.rwsRegs, Reg.w1cMask off &&& Reg.rwsMask off = 0 := by decide

theorem rwsReg_rwsMask_ne : ∀ off ∈ Obligations.rwsRegs, Reg.rwsMask off ≠ 0 := by decide

theorem rwsReg_aligned : ∀ off ∈ Obligations.rwsRegs, off % 4 = 0 := by decide

/-- Every register of the list is written as a plain word, with what its block does once it is accepted. -/
theorem State.regWrite_rwsReg {off : Nat} (h : off ∈ Obligations.rwsRegs) (s : State) (a : Agent) (v : Word) :
    s.regWrite a off v = State.plainEffect s (s.plainWrite a off v) off := by
  simp only [Obligations.rwsRegs, List.mem_cons, List.not_mem_nil, or_false] at h
  rcases h with rfl | rfl | rfl | rfl | rfl | rfl | rfl | rfl | rfl | rfl | rfl | rfl <;> rfl

/-- The W1C bits of a register that a clear of this cycle reaches: not those that the device set in it (R5). -/
def State.clearable (s : State) (off : Nat) : Word := Reg.w1cMask off &&& ~~~(s.freshBits off)

/-- The register after the 1s of a write have cleared its W1C bits (R4, R5). -/
def State.clearedWord (s : State) (off : Nat) (v : Word) : Word := s.reg off &&& ~~~(v &&& s.clearable off)

/-- The state after the 1s of a write have cleared W1C bits. -/
def State.clearW1c (s : State) (off : Nat) (v : Word) : State :=
  if s.clearable off &&& v = 0 then s else s.setReg off (s.clearedWord off v)

/-- A plain write clears W1C bits and then judges the RWS bits. -/
theorem State.plainWrite_eq (s : State) (a : Agent) {off : Nat} (v : Word) (hm : Reg.rwsMask off ≠ 0) :
    s.plainWrite a off v = (s.clearW1c off v).rwsWrite a off (Reg.rwsMask off) v := if_neg hm

theorem State.clearW1c_frame (s : State) (off : Nat) (v : Word) :
    s.clearW1c off v = { s with regs := (s.clearW1c off v).regs } := by
  unfold State.clearW1c; split <;> rfl

theorem State.clearW1c_reg_same (s : State) (off : Nat) (v : Word) : (s.clearW1c off v).reg off = s.clearedWord off v := by
  unfold State.clearW1c
  split
  · rename_i h
    have hones : ~~~(0 : Word) = BitVec.allOnes 32 := by decide
    rw [State.clearedWord, BitVec.and_comm v, h, hones, BitVec.and_allOnes]
  · exact State.setReg_reg_same ..

theorem State.clearW1c_reg_ne (s : State) (off o : Nat) (v : Word) (h : o ≠ off) : (s.clearW1c off v).reg o = s.reg o := by
  unfold State.clearW1c
  split
  · rfl
  · exact State.setReg_reg_ne _ _ _ _ h

theorem State.clearW1c_holds0 (s : State) (off : Nat) (v : Word) (a : Agent) :
    (s.clearW1c off v).holds0 a = s.holds0 a := by
  rw [State.clearW1c_frame]; cases a <;> rfl

theorem and_keeps_disjoint {x v w f m : Word} (h : w &&& m = 0) : x &&& ~~~(v &&& (w &&& ~~~f)) &&& m = x &&& m := by
  ext i hi
  have hb := congrArg (fun y : Word => y[i]) h
  simp only [BitVec.getElem_and] at hb
  simp only [BitVec.getElem_and, BitVec.getElem_not]
  cases hw : w[i] <;> cases hm : m[i] <;> simp_all

/-- A clear of W1C bits leaves the RWS bits of a register alone. -/
theorem State.clearedWord_rws (s : State) {off : Nat} (h : off ∈ Obligations.rwsRegs) (v : Word) :
    s.clearedWord off v &&& Reg.rwsMask off = s.reg off &&& Reg.rwsMask off :=
  and_keeps_disjoint (rwsReg_w1c_disjoint off h)

/-- The word that an accepted write leaves: RWS bits from the write, W1C bits cleared, all others kept. -/
def State.acceptedWord (s : State) (off : Nat) (v : Word) : Word :=
  (s.clearedWord off v &&& ~~~(Reg.rwsMask off)) ||| (v &&& Reg.rwsMask off)

/-- The state after an accepted write of RWS bits. -/
def State.accepted (s : State) (off : Nat) (v : Word) : State := (s.clearW1c off v).setReg off (s.acceptedWord off v)

theorem State.accepted_reg_same (s : State) (off : Nat) (v : Word) : (s.accepted off v).reg off = s.acceptedWord off v :=
  State.setReg_reg_same ..

theorem State.accepted_reg_ne (s : State) (off o : Nat) (v : Word) (h : o ≠ off) : (s.accepted off v).reg o = s.reg o := by
  rw [State.accepted, State.setReg_reg_ne _ _ _ _ h, State.clearW1c_reg_ne _ _ _ _ h]

theorem State.accepted_frame (s : State) (off : Nat) (v : Word) :
    s.accepted off v = { s with regs := (s.accepted off v).regs } := by
  rw [State.accepted, State.clearW1c_frame]; rfl

section
variable {s : State} {a : Agent} {off : Nat} {v : Word}

theorem State.plainWrite_held (hr : off ∈ Obligations.rwsRegs) (hv : a.isVf = false) (h0 : s.holds0 a) :
    s.plainWrite a off v = s.accepted off v := by
  rw [State.plainWrite_eq _ _ _ (rwsReg_rwsMask_ne off hr), State.rwsWrite, State.clearW1c_holds0, h0, hv,
    State.clearW1c_reg_same]
  rfl

theorem State.plainWrite_unchanging (hr : off ∈ Obligations.rwsRegs) (h0 : s.holds0 a = false)
    (he : v &&& Reg.rwsMask off = s.reg off &&& Reg.rwsMask off) : s.plainWrite a off v = s.clearW1c off v := by
  rw [State.plainWrite_eq _ _ _ (rwsReg_rwsMask_ne off hr), State.rwsWrite, State.clearW1c_holds0, h0,
    State.clearW1c_reg_same, State.clearedWord_rws _ hr, he]
  simp

theorem State.plainWrite_refused (hr : off ∈ Obligations.rwsRegs) (h0 : s.holds0 a = false)
    (he : v &&& Reg.rwsMask off ≠ s.reg off &&& Reg.rwsMask off) :
    s.plainWrite a off v = (s.clearW1c off v).protoEventA a off := by
  rw [State.plainWrite_eq _ _ _ (rwsReg_rwsMask_ne off hr), State.rwsWrite, State.clearW1c_holds0, h0,
    State.clearW1c_reg_same, State.clearedWord_rws _ hr]
  simp [he]

end

-- STARVE_LIMIT ----------------------------------------------------------------------------------------------------------

/-- A waiting frame below one limit has reached another (R118). -/
def State.reaches (s : State) (old new : Nat) : Prop :=
  ∃ f ∈ s.span.frames, f.stage = .waiting ∧ f.starve < old ∧ new ≤ f.starve

theorem State.plainEffect_plain {off : Nat} (hr : off ∈ Obligations.rwsRegs) (hs : off ≠ Reg.schedCfg) (s t : State) :
    State.plainEffect s t off = t := by
  have h1 : off ≠ Reg.roundTicks := by rintro rfl; revert hr; decide
  have h2 : off ≠ Reg.mcCtrl := by rintro rfl; revert hr; decide
  unfold State.plainEffect
  rw [if_neg h1, if_neg hs, if_neg h2]

theorem State.plainEffect_reached {s t : State} (h : t.reaches s.schedLimit t.schedLimit) :
    State.plainEffect s t Reg.schedCfg = (t.raiseB Reg.schedCfg 31).raise 961 := by
  unfold State.plainEffect
  rw [if_neg (by decide), if_pos rfl, if_pos (by simpa [State.reaches, and_assoc] using h)]

theorem State.plainEffect_unreached {s t : State} (h : ¬t.reaches s.schedLimit t.schedLimit) :
    State.plainEffect s t Reg.schedCfg = t := by
  unfold State.plainEffect
  rw [if_neg (by decide), if_pos rfl, if_neg (by simpa [State.reaches, and_assoc] using h)]

/-- No frame lies between a limit and itself. -/
theorem State.not_reaches_self (s : State) (n : Nat) : ¬s.reaches n n := by
  rintro ⟨f, -, -, h1, h2⟩
  omega

/-- A state whose SCHED_CFG has the old STARVE_LIMIT has nothing more to do. -/
theorem State.plainEffect_sameLimit {off : Nat} (hr : off ∈ Obligations.rwsRegs) {s t : State}
    (h : fld (t.reg Reg.schedCfg) 0 8 = fld (s.reg Reg.schedCfg) 0 8) : State.plainEffect s t off = t := by
  by_cases hs : off = Reg.schedCfg
  · subst hs
    have hl : t.schedLimit = s.schedLimit := by unfold State.schedLimit State.regF; rw [h]
    exact State.plainEffect_unreached (by rw [hl]; exact State.not_reaches_self _ _)
  · exact State.plainEffect_plain hr hs s t

theorem fld_eq_of_and_eq {x y : Word} (h : x &&& 0xFF = y &&& 0xFF) : fld x 0 8 = fld y 0 8 := by
  have hx : ∀ z : Word, fld z 0 8 = fld (z &&& 0xFF) 0 8 := by
    intro z
    have hones : (0xFF : Word).extractLsb' 0 8 = BitVec.allOnes 8 := by decide
    rw [fld, fld, BitVec.extractLsb'_and, hones, BitVec.and_allOnes]
  rw [hx x, hx y, h]

theorem merge_and_self (x v m : Word) : ((x &&& ~~~m) ||| (v &&& m)) &&& m = v &&& m := by
  ext i hi
  simp only [BitVec.getElem_and, BitVec.getElem_or, BitVec.getElem_not]
  cases m[i] <;> simp

/-- The limit after an accepted write of SCHED_CFG is the one written. -/
theorem State.accepted_schedLimit (s : State) (v : Word) :
    (s.accepted Reg.schedCfg v).schedLimit = max 1 (fld v 0 8) := by
  unfold State.schedLimit State.regF
  rw [State.accepted_reg_same]
  exact congrArg (max 1) (fld_eq_of_and_eq (merge_and_self _ _ _))

theorem State.accepted_reaches (s : State) (off : Nat) (v : Word) (m n : Nat) :
    (s.accepted off v).reaches m n ↔ s.reaches m n := by
  rw [State.accepted_frame]; rfl

/-- The state in which a write of SCHED_CFG left a frame starved (R118). -/
def State.starvedBy (s : State) (v : Word) : State := ((s.accepted Reg.schedCfg v).raiseB Reg.schedCfg 31).raise 961

theorem State.starvedBy_reg_same (s : State) (v : Word) :
    (s.starvedBy v).reg Reg.schedCfg = setFld (s.acceptedWord Reg.schedCfg v) 31 1 1 := by
  rw [State.starvedBy, State.raise_reg, ← State.accepted_reg_same]
  exact State.setReg_reg_same ..

theorem State.starvedBy_reg_ne (s : State) (o : Nat) (v : Word) (h : o ≠ Reg.schedCfg) :
    (s.starvedBy v).reg o = s.reg o := by
  rw [State.starvedBy, State.raise_reg, State.raiseB_reg_ne _ _ _ _ h, State.accepted_reg_ne _ _ _ _ h]

theorem State.starvedBy_ic (s : State) (v : Word) : (s.starvedBy v).ic = (s.raise 961).ic := by
  refine State.raise_ic_congr _ _ _ ?_ ?_ <;> rw [State.accepted_frame] <;> rfl

theorem State.starvedBy_frame (s : State) (v : Word) :
    s.starvedBy v = { s with regs := (s.starvedBy v).regs, ic := (s.starvedBy v).ic,
                             fresh := (s.starvedBy v).fresh, freshAt := (s.starvedBy v).freshAt } := by
  unfold State.starvedBy
  rw [State.raise_frame, State.accepted_frame]; rfl

theorem State.starvedBy_starved (s : State) (v : Word) : (s.starvedBy v).regB Reg.schedCfg 31 = true := by
  rw [State.regB, State.starvedBy_reg_same, bit_setFld_one _ _ _ (by decide)]
  rfl

theorem State.starvedBy_limit (s : State) (v : Word) : (s.starvedBy v).regF Reg.schedCfg 0 8 = fld v 0 8 := by
  rw [State.regF, State.starvedBy_reg_same, fld_setFld_disjoint _ _ _ _ _ _ (by decide)]
  exact fld_eq_of_and_eq (merge_and_self _ _ _)

-- The write as a whole ------------------------------------------------------------------------------------------------

section
variable {s : State} {a : Agent} {off : Nat} {v : Word}

/-- An accepted write that lets no waiting frame reach its limit. -/
theorem State.regWrite_held (hr : off ∈ Obligations.rwsRegs) (hv : a.isVf = false) (h0 : s.holds0 a)
    (hn : ¬(off = Reg.schedCfg ∧ s.reaches s.schedLimit (max 1 (fld v 0 8)))) :
    s.regWrite a off v = s.accepted off v := by
  rw [State.regWrite_rwsReg hr, State.plainWrite_held hr hv h0]
  by_cases hs : off = Reg.schedCfg
  · subst hs
    refine State.plainEffect_unreached fun h => hn ⟨rfl, ?_⟩
    rwa [State.accepted_schedLimit, State.accepted_reaches] at h
  · exact State.plainEffect_plain hr hs _ _

/-- An accepted write of SCHED_CFG whose limit a waiting frame has reached sets STARVED and raises source 961 (R118). -/
theorem State.regWrite_reached (hv : a.isVf = false) (h0 : s.holds0 a)
    (h : s.reaches s.schedLimit (max 1 (fld v 0 8))) :
    s.regWrite a Reg.schedCfg v = s.starvedBy v := by
  have hr : Reg.schedCfg ∈ Obligations.rwsRegs := by decide
  rw [State.regWrite_rwsReg hr, State.plainWrite_held hr hv h0]
  refine State.plainEffect_reached ?_
  rwa [State.accepted_schedLimit, State.accepted_reaches]

/-- Without SEM[0], a write that would change no RWS bit clears W1C bits and does nothing else (R37). -/
theorem State.regWrite_unchanging (hr : off ∈ Obligations.rwsRegs) (h0 : s.holds0 a = false)
    (he : v &&& Reg.rwsMask off = s.reg off &&& Reg.rwsMask off) : s.regWrite a off v = s.clearW1c off v := by
  rw [State.regWrite_rwsReg hr, State.plainWrite_unchanging hr h0 he]
  refine State.plainEffect_sameLimit hr ?_
  by_cases hs : off = Reg.schedCfg
  · subst hs
    rw [State.clearW1c_reg_same]
    exact fld_eq_of_and_eq (State.clearedWord_rws s hr v)
  · rw [State.clearW1c_reg_ne _ _ _ _ (Ne.symm hs)]

/-- Without SEM[0], a write that would change an RWS bit clears W1C bits and is logged (R37). -/
theorem State.regWrite_refused (hr : off ∈ Obligations.rwsRegs) (h0 : s.holds0 a = false)
    (he : v &&& Reg.rwsMask off ≠ s.reg off &&& Reg.rwsMask off) :
    s.regWrite a off v = (s.clearW1c off v).protoEventA a off := by
  rw [State.regWrite_rwsReg hr, State.plainWrite_refused hr h0 he]
  refine State.plainEffect_sameLimit hr ?_
  rw [State.protoEventA_reg_high _ _ _ _ (by decide)]
  by_cases hs : off = Reg.schedCfg
  · subst hs
    rw [State.clearW1c_reg_same]
    exact fld_eq_of_and_eq (State.clearedWord_rws s hr v)
  · rw [State.clearW1c_reg_ne _ _ _ _ (Ne.symm hs)]

end

/-- Settles O19: what is admitted is decided first; then the four forms of a write of RWS and W1C bits. -/
theorem registerWrites : Obligations.RegisterWrites := by
  intro a s hl
  refine ⟨fun off v h4 h => ?_, fun off size v => exec_registerWrite_badSize hl v, fun off v h8 => ?_,
    fun off hr v hv had => ?_, fun v => ⟨?_, fun hv had h0 => ?_⟩⟩
  · have had : s.admits a off = false := by
      rcases h with h | ⟨hrd, hc, hb⟩
      · exact State.admits_outside h
      · exact State.admits_early hrd hc hb
    rw [exec_registerWrite_word hl h4, State.writeAt_dropped had]
  · refine ⟨_, exec_registerWrite_setWidth hl (by omega) _, ?_⟩
    rw [exec_registerWrite_pair hl h8, exec_registerWrite_access _ _ (by omega)]
    congr 2
  · have hx : ∀ t, s.regWrite a off v = t → exec (.registerWrite a off 4 (v.setWidth 64)) s = .next t := by
      rintro t rfl
      rw [exec_registerWrite_setWidth hl (rwsReg_aligned off hr), State.writeAt_admitted had]
    refine ⟨fun h0 hs hreach => ?_, fun h0 hn => ?_, fun h0 he => ?_, fun h0 he => ?_⟩
    · subst hs
      exact ⟨s.starvedBy v, hx _ (State.regWrite_reached hv h0 hreach), s.starvedBy_starved v, s.starvedBy_limit v,
        fun o ho => s.starvedBy_reg_ne o v ho, s.starvedBy_ic v, s.starvedBy_frame v⟩
    · exact ⟨s.accepted off v, hx _ (State.regWrite_held hr hv h0 hn), s.accepted_reg_same off v,
        fun o ho => s.accepted_reg_ne off o v ho, s.accepted_frame off v⟩
    · exact ⟨s.clearW1c off v, hx _ (State.regWrite_unchanging hr h0 he), s.clearW1c_reg_same off v,
        fun o ho => s.clearW1c_reg_ne off o v ho, s.clearW1c_frame off v⟩
    · exact ⟨s.clearW1c off v, s.clearW1c_reg_same off v, fun o ho => s.clearW1c_reg_ne off o v ho,
        s.clearW1c_frame off v, hx _ (State.regWrite_refused hr h0 he)⟩
  · rw [exec_minStep, exec_registerWrite_access _ _ (by decide), extractLsb'_setWidth_word]
  · refine ⟨s.accepted Reg.stepCtrl v, ?_, s.accepted_reg_same _ v, fun o ho => s.accepted_reg_ne _ o v ho,
      s.accepted_frame _ v⟩
    rw [exec_minStep, State.access, if_pos hl, State.writeAt_admitted had,
      State.regWrite_held (by decide) hv h0 (fun ⟨h, _⟩ => absurd h (by decide))]

end Sys2Proof.Machine
end

section
/-! SUPPORT. Register pairs and reads that clear (R5, R6, R8, R38, R46, R417, R418, R422). -/

namespace Sys2Proof.Machine

-- The value and the effect of a read ---------------------------------------------------------------------------------------

theorem exec_pairLoRead (a : Agent) (off size : Nat) (s : State) :
    exec (.pairLoRead a off size) s = .next (s.readAccess a off size) := rfl

theorem exec_rcRead (a : Agent) (off size : Nat) (s : State) :
    exec (.rcRead a off size) s = .next (s.readAccess a off size) := rfl

/-- A read of the register asks for no semaphore, pops no word and claims no source, and no bit of it is left open. -/
def Reg.readsPlain (off : Nat) : Bool :=
  !Reg.within off (Reg.semLock 0) 64 && !Reg.within off (Reg.inWord 0) 64 && !Reg.within off (Reg.icClaim 0) 4 &&
    off != Reg.power && !Reg.within off (Reg.estClass 0) 7 && off != Reg.fwWrite

theorem Reg.pair_lo : ∀ p ∈ Reg.pairs,
    p.1 % 4 = 0 ∧ Reg.readsPlain p.1 ∧ Reg.rcMask p.1 = 0 ∧ Reg.hiOf p.1 = some p.2 := by decide

theorem Reg.pair_hi : ∀ p ∈ Reg.pairs,
    p.2 % 4 = 0 ∧ Reg.readsPlain p.2 ∧ Reg.rcMask p.2 = 0 ∧ Reg.hiOf p.2 = none ∧ Reg.loOf p.2 = some p.1 := by decide

/-- A register with an RC field is one of three, or a counter of a memory controller. -/
theorem Reg.rcMask_cases {off : Nat} (h : Reg.rcMask off ≠ 0) :
    off ∈ [Reg.therm, Reg.stagePeak, Reg.keyGapPeak] ∨ (0x100000 ≤ off ∧ off < 0x140000) := by
  unfold Reg.rcMask at h
  simp only [List.mem_cons, List.not_mem_nil, or_false]
  split at h
  · simp [*]
  split at h
  · simp [*]
  split at h
  · simp [*]
  split at h
  · rename_i h1
    exact .inr ⟨h1.1, h1.2.1⟩
  · exact absurd rfl h

theorem Reg.readsPlain_of_rc {off : Nat} (h : Reg.rcMask off ≠ 0) : Reg.readsPlain off := by
  rcases Reg.rcMask_cases h with hm | ⟨h1, h2⟩
  · simp only [List.mem_cons, List.not_mem_nil, or_false] at hm
    rcases hm with rfl | rfl | rfl <;> decide
  · simp only [Reg.readsPlain, Reg.within, Reg.semLock, Reg.inWord, Reg.icClaim, Reg.estClass, Reg.power, Reg.fwWrite,
      Bool.and_eq_true, Bool.not_eq_true', Bool.and_eq_false_iff, decide_eq_false_iff_not, bne_iff_ne]
    omega

theorem Reg.readsPlain_acts {off : Nat} (h : Reg.readsPlain off) :
    Reg.within off (Reg.semLock 0) 64 = false ∧ Reg.within off (Reg.inWord 0) 64 = false ∧
      Reg.within off (Reg.icClaim 0) 4 = false := by
  simp only [Reg.readsPlain, Bool.and_eq_true, Bool.not_eq_true'] at h
  obtain ⟨⟨⟨⟨⟨hsem, hmbx⟩, hic⟩, -⟩, -⟩, -⟩ := h
  exact ⟨hsem, hmbx, hic⟩

/-- The state after a read of a register with an RC field: cleared for every reader but a VF (R6, R422), but for bits of
this cycle (R5). -/
def State.rcCleared (s : State) (a : Agent) (off : Nat) : State :=
  if a.isVf then s else s.setReg off (s.reg off &&& ~~~(Reg.rcMask off &&& ~~~(s.freshBits off)))

section
variable {s : State} {a : Agent} {off : Nat}

theorem State.openBits_readsPlain (h : Reg.readsPlain off) : s.openBits off = 0 := by
  simp only [Reg.readsPlain, Bool.and_eq_true, Bool.not_eq_true', bne_iff_ne] at h
  obtain ⟨⟨⟨-, hp⟩, he⟩, hf⟩ := h
  simp [State.openBits, hp, he, hf]

theorem State.regRead_rc (hp : Reg.readsPlain off) (hrc : Reg.rcMask off ≠ 0) :
    s.regRead a off = (s.regValue a off, s.rcCleared a off) := by
  have ho := State.openBits_readsPlain (s := s) hp
  obtain ⟨hsem, hmbx, hic⟩ := Reg.readsPlain_acts hp
  unfold State.regRead
  rw [if_neg (by simp [hsem]), if_neg (by simp [hmbx]), if_neg (by simp [hic]), if_neg (by simp [ho]), if_pos hrc]
  rfl

/-- The state after a read of a _LO half: the value that _HI has is latched for the reader (R8). -/
def State.latchHi (s : State) (a : Agent) (lo hi : Nat) : State :=
  s.setAgent a.code { s.agent a.code with latch := (s.agent a.code).latch.put lo (s.regValue a hi) }

theorem State.regRead_lo {hi : Nat} (hp : Reg.readsPlain off) (hrc : Reg.rcMask off = 0) (hhi : Reg.hiOf off = some hi) :
    s.regRead a off = (s.regValue a off, s.latchHi a off hi) := by
  have ho := State.openBits_readsPlain (s := s) hp
  obtain ⟨hsem, hmbx, hic⟩ := Reg.readsPlain_acts hp
  simp [State.regRead, hsem, hmbx, hic, ho, hrc, hhi, State.latchHi]

/-- The state after a read of a _HI half that a latch answered. -/
def State.dropLatch (s : State) (a : Agent) (lo : Nat) : State :=
  s.setAgent a.code { s.agent a.code with latch := (s.agent a.code).latch.del lo }

theorem State.regRead_hi_latched {lo : Nat} {w : Word} (hp : Reg.readsPlain off) (hrc : Reg.rcMask off = 0)
    (hhi : Reg.hiOf off = none) (hlo : Reg.loOf off = some lo) (hw : (s.agent a.code).latch.find lo = some w) :
    s.regRead a off = (w, s.dropLatch a lo) := by
  have ho := State.openBits_readsPlain (s := s) hp
  obtain ⟨hsem, hmbx, hic⟩ := Reg.readsPlain_acts hp
  simp [State.regRead, hsem, hmbx, hic, ho, hrc, hhi, hlo, hw, State.dropLatch]

theorem State.regRead_hi_live {lo : Nat} (hp : Reg.readsPlain off) (hrc : Reg.rcMask off = 0)
    (hhi : Reg.hiOf off = none) (hlo : Reg.loOf off = some lo) (hw : (s.agent a.code).latch.find lo = none) :
    s.regRead a off = (s.regValue a off, s) := by
  have ho := State.openBits_readsPlain (s := s) hp
  obtain ⟨hsem, hmbx, hic⟩ := Reg.readsPlain_acts hp
  simp [State.regRead, hsem, hmbx, hic, ho, hrc, hhi, hlo, hw]

-- Reads by size -----------------------------------------------------------------------------------------------------------

theorem State.readAccess_word (hl : s.live a) (h4 : off % 4 = 0) (hv : s.inView a off) :
    s.readAccess a off 4 = (s.regRead a off).2.emit (.readWord off (s.regRead a off).1) := by
  simp [State.readAccess, State.readAt, hl, h4, hv]

theorem State.readAccess_outside (hl : s.live a) (h4 : off % 4 = 0) (hv : s.inView a off = false) :
    s.readAccess a off 4 = s.emit (.readWord off 0) := by
  simp [State.readAccess, State.readAt, hl, h4, hv]

theorem State.readAccess_badSize {size : Nat} (hl : s.live a) (h4 : ¬(size = 4 ∧ off % 4 = 0))
    (h8 : ¬(size = 8 ∧ off % 8 = 0)) : s.readAccess a off size = s.emit (.readWord off 0) := by
  simp [State.readAccess, hl, h4, h8]

end

-- What belongs to one agent -----------------------------------------------------------------------------------------------

@[simp] theorem State.setAgent_agent_same (s : State) (c : Nat) (x : AgentSt) : (s.setAgent c x).agent c = x :=
  Tbl.get_put_same ..

theorem State.setAgent_agent_ne (s : State) (c d : Nat) (x : AgentSt) (h : d ≠ c) : (s.setAgent c x).agent d = s.agent d :=
  Tbl.get_put_ne _ _ _ _ _ h

@[simp] theorem State.setAgent_live (s : State) (c : Nat) (x : AgentSt) (a : Agent) : (s.setAgent c x).live a = s.live a := by
  cases a <;> rfl

/-- What an agent sees of the window is decided by registers. -/
theorem State.inView_congr {s t : State} (h : t.regs = s.regs) (a : Agent) (off : Nat) : t.inView a off = s.inView a off := by
  have hr : t.reg = s.reg := by funext o; unfold State.reg; rw [h]
  unfold State.inView State.vfView State.ownsTimer State.regF
  rw [hr]

theorem State.admits_congr {s t : State} (h : t.regs = s.regs) (a : Agent) (off : Nat) : t.admits a off = s.admits a off := by
  have hr : t.ready = s.ready := by unfold State.ready State.regB State.reg; rw [h]
  unfold State.admits
  rw [State.inView_congr h, hr]

@[simp] theorem State.emit_live (s : State) (e : Emit) (a : Agent) : (s.emit e).live a = s.live a := by cases a <;> rfl

-- Pairs (R8) ----------------------------------------------------------------------------------------------------------------

section
variable {s : State} {a : Agent} {p : Nat × Nat}

/-- A read of a _LO half. -/
theorem exec_pairLoRead_lo (hl : s.live a) (hp : p ∈ Reg.pairs) (hv : s.inView a p.1) :
    exec (.pairLoRead a p.1 4) s = .next ((s.latchHi a p.1 p.2).emit (.readWord p.1 (s.regValue a p.1))) := by
  obtain ⟨h4, hplain, hrc, hhi⟩ := Reg.pair_lo p hp
  rw [exec_pairLoRead, State.readAccess_word hl h4 hv, State.regRead_lo hplain hrc hhi]

/-- A read of a _HI half after its _LO half was read. -/
theorem exec_pairLoRead_latched (hl : s.live a) (hp : p ∈ Reg.pairs) (hv : s.inView a p.2) {w : Word}
    (hw : (s.agent a.code).latch.find p.1 = some w) :
    exec (.pairLoRead a p.2 4) s = .next ((s.dropLatch a p.1).emit (.readWord p.2 w)) := by
  obtain ⟨h4, hplain, hrc, hhi, hlo⟩ := Reg.pair_hi p hp
  rw [exec_pairLoRead, State.readAccess_word hl h4 hv, State.regRead_hi_latched hplain hrc hhi hlo hw]

/-- A read of a _HI half with nothing latched. -/
theorem exec_pairLoRead_live (hl : s.live a) (hp : p ∈ Reg.pairs) (hv : s.inView a p.2)
    (hw : (s.agent a.code).latch.find p.1 = none) :
    exec (.pairLoRead a p.2 4) s = .next (s.emit (.readWord p.2 (s.regValue a p.2))) := by
  obtain ⟨h4, hplain, hrc, hhi, hlo⟩ := Reg.pair_hi p hp
  rw [exec_pairLoRead, State.readAccess_word hl h4 hv, State.regRead_hi_live hplain hrc hhi hlo hw]

end

theorem State.latchHi_find (s : State) (a : Agent) (lo hi : Nat) :
    ((s.latchHi a lo hi).agent a.code).latch.find lo = some (s.regValue a hi) := by
  rw [State.latchHi, State.setAgent_agent_same]
  exact Tbl.find_put_same ..

theorem State.latchHi_agent_ne (s : State) (a : Agent) (lo hi c : Nat) (h : c ≠ a.code) :
    (s.latchHi a lo hi).agent c = s.agent c := State.setAgent_agent_ne _ _ _ _ h

theorem State.latchHi_live (s : State) (a b : Agent) (lo hi : Nat) : (s.latchHi a lo hi).live b = s.live b :=
  State.setAgent_live ..

theorem State.dropLatch_find (s : State) (a : Agent) (lo : Nat) :
    ((s.dropLatch a lo).agent a.code).latch.find lo = none := by
  rw [State.dropLatch, State.setAgent_agent_same]
  exact Tbl.find_del_same ..

/-- A read of _LO and then of _HI by one agent gives both halves of one moment. -/
theorem pairReads {s : State} {a : Agent} (hl : s.live a) {p : Nat × Nat} (hp : p ∈ Reg.pairs) (hlo : s.inView a p.1)
    (hhi : s.inView a p.2) :
    ∃ t, exec (.pairLoRead a p.1 4) s = .next t ∧ t.out = s.out ++ [.readWord p.1 (s.regValue a p.1)] ∧
      (t.agent a.code).latch.find p.1 = some (s.regValue a p.2) ∧
      (∀ c, c ≠ a.code → t.agent c = s.agent c) ∧ t = { s with agents := t.agents, out := t.out } ∧
      ∃ u, exec (.pairLoRead a p.2 4) t = .next u ∧ u.out = t.out ++ [.readWord p.2 (s.regValue a p.2)] ∧
        (u.agent a.code).latch.find p.1 = none ∧ u = { t with agents := u.agents, out := u.out } := by
  refine ⟨_, exec_pairLoRead_lo hl hp hlo, rfl, s.latchHi_find a p.1 p.2, fun c hc => s.latchHi_agent_ne a p.1 p.2 c hc, rfl,
    _, exec_pairLoRead_latched ?_ hp ?_ (s.latchHi_find a p.1 p.2), rfl, State.dropLatch_find _ a p.1, rfl⟩
  · rwa [State.emit_live, State.latchHi_live]
  · rwa [State.inView_congr (by rfl)]

-- Writes of pairs (R38, R46) ----------------------------------------------------------------------------------------------------

theorem exec_pairHiWrite {lo off : Nat} (h : Reg.loOf off = some lo) (a : Agent) (v : Word) (s : State) :
    exec (.pairHiWrite a off v) s = .next (s.access a off v) := by
  show execPairHiWrite a off v s = _
  unfold execPairHiWrite
  rw [h]

theorem State.access_admitted {s : State} {a : Agent} {off : Nat} (hl : s.live a) (h : s.admits a off) (v : Word) :
    s.access a off v = s.regWrite a off v := by
  rw [State.access, if_pos hl, State.writeAt_admitted h]

theorem State.regWrite_apwinLo (s : State) (a : Agent) (v : Word) : s.regWrite a Reg.apwinLo v = s.stageLo a Reg.apwinLo v := rfl

theorem State.regWrite_apwinHi (s : State) (a : Agent) (v : Word) : s.regWrite a Reg.apwinHi v = s.apwinWrite a v := rfl

theorem State.regWrite_roundBaseHi (s : State) (a : Agent) (v : Word) :
    s.regWrite a Reg.roundBaseHi v = s.roundBaseWrite a v := rfl

theorem State.regValue_apwinLo (s : State) (a : Agent) : s.regValue a Reg.apwinLo = (s.agent a.code).apwinLo := rfl

/-- The _LO half that a write of _HI takes with it (R8). -/
def State.loHalf (s : State) (a : Agent) (lo : Nat) : Word := (s.agent a.code).stage.get lo (s.regValue a lo)

/-- The state with nothing staged for the agent's pair. -/
def State.unstage (s : State) (a : Agent) (lo : Nat) : State :=
  s.setAgent a.code { s.agent a.code with stage := (s.agent a.code).stage.del lo }

theorem State.takeLo_eq (s : State) (a : Agent) (lo : Nat) : s.takeLo a lo = (s.loHalf a lo, s.unstage a lo) := rfl

theorem State.stageLo_loHalf (s : State) (a : Agent) (lo : Nat) (v : Word) : (s.stageLo a lo v).loHalf a lo = v := by
  rw [State.loHalf, State.stageLo, State.setAgent_agent_same]
  exact Tbl.get_put_same ..

theorem State.loHalf_unstaged {s : State} {a : Agent} {lo : Nat} (h : (s.agent a.code).stage.find lo = none) :
    s.loHalf a lo = s.regValue a lo := by
  rw [State.loHalf, Tbl.get_eq_find, h]; rfl

theorem State.stageLo_apwinBase (s : State) (a : Agent) (lo : Nat) (v : Word) (f : Fid) :
    (s.stageLo a lo v).apwinBase f = s.apwinBase f := by
  unfold State.apwinBase State.stageLo
  by_cases h : (Agent.fn f).code = a.code
  · simp only [h, State.setAgent_agent_same]
  · simp only [State.setAgent_agent_ne _ _ _ _ h]

theorem Agent.code_fn_ne {f g : Fid} (h : g ≠ f) : (Agent.fn g).code ≠ (Agent.fn f).code := by
  intro hc
  exact h (Fin.ext (Nat.succ.inj hc))

/-- The agent's part after a write of APWIN_BASE_HI (R46). -/
theorem State.apwinWrite_agent (s : State) (a : Agent) (v : Word) :
    (s.apwinWrite a v).agent a.code =
      { s.agent a.code with stage := (s.agent a.code).stage.del Reg.apwinLo,
                            apwinLo := s.loHalf a Reg.apwinLo &&& 0xFFFF0000, apwinHi := v &&& 0xF } := by
  simp only [State.apwinWrite, State.takeLo_eq, State.unstage, State.setAgent_agent_same]

theorem State.apwinWrite_base (s : State) (f : Fid) (v : Word) :
    (s.apwinWrite (.fn f) v).apwinBase f = pair64 (v &&& 0xF) (s.loHalf (.fn f) Reg.apwinLo &&& 0xFFFF0000) := by
  unfold State.apwinBase
  rw [State.apwinWrite_agent]

theorem State.apwinWrite_base_ne (s : State) {f g : Fid} (h : g ≠ f) (v : Word) :
    (s.apwinWrite (.fn f) v).apwinBase g = s.apwinBase g := by
  have hc := Agent.code_fn_ne h
  simp only [State.apwinBase, State.apwinWrite, State.takeLo_eq, State.unstage, State.setAgent_agent_ne _ _ _ _ hc]

theorem State.apwinWrite_stage (s : State) (a : Agent) (v : Word) :
    ((s.apwinWrite a v).agent a.code).stage.find Reg.apwinLo = none := by
  rw [State.apwinWrite_agent]
  exact Tbl.find_del_same ..

theorem State.apwinWrite_lo (s : State) (a : Agent) (v : Word) :
    (s.apwinWrite a v).loHalf a Reg.apwinLo = s.loHalf a Reg.apwinLo &&& 0xFFFF0000 := by
  rw [State.loHalf_unstaged (s.apwinWrite_stage a v), State.regValue_apwinLo, State.apwinWrite_agent]

/-- APWIN_BASE: a write of _LO is staged, and a write of _HI takes it, or the current low half (R8, R46). -/
theorem apwinWrites {f : Fid} {s : State} (hl : s.live (.fn f)) (hlo : s.admits (.fn f) Reg.apwinLo)
    (hhi : s.admits (.fn f) Reg.apwinHi) (lo hi : Word) :
    ∃ t, exec (.registerWrite (.fn f) Reg.apwinLo 4 (lo.setWidth 64)) s = .next t ∧ t.apwinBase f = s.apwinBase f ∧
      ∃ u, exec (.pairHiWrite (.fn f) Reg.apwinHi hi) t = .next u ∧
        u.apwinBase f = pair64 (hi &&& 0xF) (lo &&& 0xFFFF0000) ∧
        (u.agent (Agent.fn f).code).stage.find Reg.apwinLo = none ∧ (∀ g, g ≠ f → u.apwinBase g = s.apwinBase g) ∧
        u = { s with agents := u.agents } ∧
        ∃ w, exec (.pairHiWrite (.fn f) Reg.apwinHi 0) u = .next w ∧ w.apwinBase f = pair64 0 (lo &&& 0xFFFF0000) := by
  have hpair : Reg.loOf Reg.apwinHi = some Reg.apwinLo := by decide
  have hzero : (0 : Word) &&& 0xF = 0 := by decide
  have hstage := State.stageLo_loHalf s (.fn f) Reg.apwinLo lo
  let t := s.stageLo (.fn f) Reg.apwinLo lo
  let u := t.apwinWrite (.fn f) hi
  have htl : t.live (.fn f) := hl
  have hul : u.live (.fn f) := hl
  have hta : t.admits (.fn f) Reg.apwinHi := by rwa [State.admits_congr (by rfl)]
  have hua : u.admits (.fn f) Reg.apwinHi := by rwa [State.admits_congr (by rfl)]
  refine ⟨t, ?_, State.stageLo_apwinBase .., u, ?_, ?_, State.apwinWrite_stage .., fun g hg => ?_, rfl,
    u.apwinWrite (.fn f) 0, ?_, ?_⟩
  · rw [exec_registerWrite_setWidth hl (by decide), State.writeAt_admitted hlo, State.regWrite_apwinLo]
  · rw [exec_pairHiWrite hpair, State.access_admitted htl hta, State.regWrite_apwinHi]
  · rw [State.apwinWrite_base, hstage]
  · rw [State.apwinWrite_base_ne _ hg, State.stageLo_apwinBase]
  · rw [exec_pairHiWrite hpair, State.access_admitted hul hua, State.regWrite_apwinHi]
  · rw [State.apwinWrite_base, State.apwinWrite_lo, hstage, BitVec.and_assoc, BitVec.and_self, hzero]

/-- ROUND_BASE without SEM[0] (R38): nothing of the pair changes, and a change is logged. -/
theorem State.roundBaseWrite_unheld {s : State} {a : Agent} (h0 : s.holds0 a = false) (v : Word) :
    s.roundBaseWrite a v =
      if s.loHalf a Reg.roundBaseLo = s.reg Reg.roundBaseLo ∧ v = s.reg Reg.roundBaseHi then
        s.unstage a Reg.roundBaseLo
      else (s.unstage a Reg.roundBaseLo).protoEventA a Reg.roundBaseHi := by
  simp [State.roundBaseWrite, State.takeLo_eq, h0]

/-- The clause of the pairs (R8, R38, R46). -/
theorem registerPairs : Clause.registerPairs := by
  intro a s hl
  refine ⟨fun p hp hlo hhi => pairReads hl hp hlo hhi, fun p hp hv hw => exec_pairLoRead_live hl hp hv hw,
    fun f lo hi ha hlo hhi => ?_, fun hi hv h0 had => ?_⟩
  · subst ha
    exact apwinWrites hl hlo hhi lo hi
  · refine ⟨s.unstage a Reg.roundBaseLo, rfl, rfl, ?_⟩
    rw [exec_pairHiWrite (by decide : Reg.loOf Reg.roundBaseHi = some Reg.roundBaseLo), State.access_admitted hl had,
      State.regWrite_roundBaseHi, State.roundBaseWrite_unheld h0]
    rfl

-- Reads that clear ------------------------------------------------------------------------------------------------------------

theorem State.rcCleared_reg_same (s : State) (a : Agent) (off : Nat) :
    (s.rcCleared a off).reg off =
      if a.isVf then s.reg off else s.reg off &&& ~~~(Reg.rcMask off &&& ~~~(s.freshBits off)) := by
  unfold State.rcCleared
  split
  · rfl
  · exact State.setReg_reg_same ..

theorem State.rcCleared_reg_ne (s : State) (a : Agent) (off o : Nat) (h : o ≠ off) :
    (s.rcCleared a off).reg o = s.reg o := by
  unfold State.rcCleared
  split
  · rfl
  · exact State.setReg_reg_ne _ _ _ _ h

theorem State.rcCleared_frame (s : State) (a : Agent) (off : Nat) :
    s.rcCleared a off = { s with regs := (s.rcCleared a off).regs } := by
  unfold State.rcCleared; split <;> rfl

/-- The clause of reads that clear and reads that reach nothing (R6, R417, R418, R422). -/
theorem rcReads : Clause.rcReads := by
  intro a off s hl
  refine ⟨fun hv h4 hrc => ⟨(s.rcCleared a off).emit (.readWord off (s.regValue a off)), ?_, ?_,
    s.rcCleared_reg_same a off, s.rcCleared_reg_ne a off, ?_⟩, fun hv h4 => ?_, fun size h4 h8 => ?_⟩
  · rw [exec_rcRead, State.readAccess_word hl h4 hv, State.regRead_rc (Reg.readsPlain_of_rc hrc) hrc]
  · rw [State.rcCleared_frame]; rfl
  · rw [State.rcCleared_frame]; rfl
  · rw [exec_rcRead, State.readAccess_outside hl h4 hv]
  · rw [exec_rcRead, State.readAccess_badSize hl h4 h8]

/-- Settles O20: the clause of the pairs and the clause of the reads that clear. -/
theorem registerReads : Obligations.RegisterReads := ⟨registerPairs, rcReads⟩

end Sys2Proof.Machine
end

section
/-! SUPPORT. The passing of a cycle (R9, R256, R315, R327, R328; log 2): what it leaves of the queue, the time and the
latched deliveries, and what it does where no packet of the Tollgate is under way. -/

namespace Sys2Proof.Machine

theorem foldl_keeps {α β γ : Type} (g : α → γ) (f : α → β → α) (h : ∀ x b, g (f x b) = g x) (l : List β) :
    ∀ x, g (l.foldl f x) = g x := by
  induction l with
  | nil => intro x; rfl
  | cons b r ih => intro x; exact (ih _).trans (h x b)

theorem Tbl.get_mapVal {α : Type} (t : Tbl α) (f : α → α) (k : Nat) (d : α) (hd : f d = d) :
    (t.mapVal f).get k d = f (t.get k d) := by
  induction t with
  | nil => exact hd.symm
  | cons e r ih =>
    by_cases h : e.1 = k
    · simp [Tbl.mapVal, Tbl.get, h]
    · simpa [Tbl.mapVal, Tbl.get, h] using ih

-- What neither a message nor a packet of the Tollgate changes ----------------------------------------------------------------

/-- The waiting commands, the time and the deliveries latched in the cycle. -/
def State.clockPart (s : State) : List Instr × TimeSt × List Latch := (s.pending, s.time, s.ic.latches)

theorem State.bump_clockPart (s : State) (off lo len : Nat) : (s.bump off lo len).clockPart = s.clockPart := by
  simp only [State.clockPart, State.bump_pending, State.bump_time, State.bump_ic]

theorem State.bumpSat_clockPart (s : State) (off lo len k : Nat) : (s.bumpSat off lo len k).clockPart = s.clockPart := by
  simp only [State.clockPart, State.bumpSat_pending, State.bumpSat_time, State.bumpSat_ic]

theorem State.bumpPair_clockPart (s : State) (lo hi k : Nat) : (s.bumpPair lo hi k).clockPart = s.clockPart := by
  simp only [State.clockPart, State.bumpPair_pending, State.bumpPair_time, State.bumpPair_ic]

theorem State.setFlow_clockPart (s : State) (f : Nat) (x : Flow) : (s.setFlow f x).clockPart = s.clockPart := by
  simp only [State.clockPart, State.setFlow_pending, State.setFlow_time, State.setFlow_ic]

theorem State.setBuf_clockPart (s : State) (k : Nat) (b : Buf) : (s.setBuf k b).clockPart = s.clockPart := by
  simp only [State.clockPart, State.setBuf_pending, State.setBuf_time, State.setBuf_ic]

theorem State.clockPart_packetFrom {s t : State} (h : s.packetFrom t) : t.clockPart = s.clockPart := by
  rw [State.packetFrom] at h
  rw [h]; rfl

theorem State.raise_latches (s : State) (n : Nat) : (s.raise n).ic.latches = s.ic.latches := by
  unfold State.raise State.setIst
  split
  · rfl
  split
  · rfl
  dsimp only
  split
  · split <;> rfl
  · rfl

theorem State.wakeBoth_ic (s : State) :
    ([0, 1].foldl (fun st n => if st.regB (Reg.wakeCtrl n) 28 then st.wakePort n else st) s).ic = s.ic := by
  refine foldl_keeps State.ic _ (fun st n => ?_) _ s
  split
  · unfold State.wakePort; split <;> rfl
  · rfl

theorem State.recordFresh_latches (r : Report) (s : State) (esc : Bool) (cls : Nat) (row : FaultRow) :
    (State.record.fresh r s esc cls row).st.ic.latches = s.ic.latches := by
  unfold State.record.fresh
  extract_lets h seq s1 s2 e fc s3 s4
  have h2 : s2.ic = s.ic := by dsimp only [s2]; split <;> rfl
  have h3 : s3.ic = s2.ic := by dsimp only [s3]; split <;> rfl
  have h4 : s4.ic = s3.ic := by
    dsimp only [s4]
    split
    · exact State.wakeBoth_ic s3
    · rfl
  rw [State.raise_latches, h4, h3, h2]

theorem State.record_latches (s : State) (r : Report) : (s.record r).st.ic.latches = s.ic.latches := by
  unfold State.record
  extract_lets esc cls row s1 headSlot
  split
  · split
    · rw [State.raise_latches]; rfl
    · rw [State.recordFresh_latches]; rfl
  · rw [State.recordFresh_latches]; rfl

theorem State.protoEvent_clockPart (s : State) (fid d : Nat) : (s.protoEvent fid d).clockPart = s.clockPart := by
  have hf := State.protoEvent_recordedFrom s fid d
  have hl : (s.protoEvent fid d).ic.latches = s.ic.latches := by
    unfold State.protoEvent
    rw [State.record_latches]; rfl
  rw [State.recordedFrom] at hf
  unfold State.clockPart
  rw [hl, hf]

theorem State.emitChunks_clockPart (s : State) (fid addr : Nat) (bs : List Byte) :
    (s.emitChunks fid addr bs).clockPart = s.clockPart := by
  refine foldl_keeps State.clockPart _ (fun st i => ?_) _ s
  rfl

theorem State.emitWrite_clockPart (s : State) (fid addr : Nat) (bs : List Byte) :
    (s.emitWrite fid addr bs).clockPart = s.clockPart := by
  unfold State.emitWrite
  dsimp only
  split
  · rfl
  · rw [State.emitChunks_clockPart, State.emitChunks_clockPart]

theorem State.flowWrite_clockPart (s : State) (im : List Word) (fid addr : Nat) (bs : List Byte) :
    (s.flowWrite im fid addr bs).clockPart = s.clockPart := by
  unfold State.flowWrite
  split
  · rfl
  · exact State.emitWrite_clockPart ..

theorem State.eraseStep_clockPart (s : State) (k : Nat) (p : Packet) : (s.eraseStep k p).clockPart = s.clockPart := by
  unfold State.eraseStep
  split
  · dsimp only
    split
    · exact State.clockPart_packetFrom (State.complete_packetFrom ..)
    · rfl
  · rfl

theorem State.settleKey_clockPart (s : State) (k : Nat) : (s.settleKey k).clockPart = s.clockPart := by
  unfold State.settleKey
  split
  · exact foldl_keeps State.clockPart _ (fun st p => st.eraseStep_clockPart k p) _ _
  · rfl

theorem State.endSending_clockPart (s : State) (f : Nat) : (s.endSending f).clockPart = s.clockPart := by
  unfold State.endSending
  dsimp only
  split
  · rw [State.settleKey_clockPart, State.setFlow_clockPart]
  · rfl

theorem State.unpinRing_clockPart (s : State) (f : Nat) : (s.unpinRing f).clockPart = s.clockPart := by
  unfold State.unpinRing
  dsimp only
  split
  · rw [State.unpin, State.setBuf_clockPart, State.setFlow_clockPart]
  · rfl

theorem State.haltFlow_clockPart (s : State) (f c : Nat) : (s.haltFlow f c).clockPart = s.clockPart := by
  rw [State.haltFlow, State.bumpSat_clockPart, State.setFlow_clockPart, State.unpinRing_clockPart]

theorem State.settleFlow_clockPart (s : State) (f : Nat) : (s.settleFlow f).clockPart = s.clockPart := by
  unfold State.settleFlow
  dsimp only
  split
  · rw [State.idleFlow, State.setFlow_clockPart, State.unpinRing_clockPart]
  · rfl

theorem State.deliverPacket_clockPart (s : State) (f : Nat) (p : Sending) :
    (s.deliverPacket f p).clockPart = s.clockPart := by
  unfold State.deliverPacket
  extract_lets x y n prod k s1 s2 s3 s4 bad
  have h1 : s1.clockPart = s.clockPart := State.flowWrite_clockPart ..
  have h2 : s2.clockPart = s1.clockPart := by
    dsimp only [s2]
    split
    · rfl
    · exact State.emitWrite_clockPart ..
  have h3 : s3.clockPart = s2.clockPart := State.setFlow_clockPart ..
  have h4 : s4.clockPart = s3.clockPart := by
    dsimp only [s4]
    rw [State.endSending_clockPart, State.bumpPair_clockPart, State.bump_clockPart]
  rw [State.settleFlow_clockPart]
  split
  · rw [State.protoEvent_clockPart, State.haltFlow_clockPart, h4, h3, h2, h1]
  · rw [h4, h3, h2, h1]

/-- A flow's packet is delivered if its last cycle has come (R256). -/
def State.endIfDue (s : State) (e : Nat × Flow) : State :=
  match e.2.sending with
  | some p => if p.ends ≤ s.cyc then s.deliverPacket e.1 p else s
  | none => s

theorem State.deliverDue_eq (s : State) : s.deliverDue = s.flows.foldl State.endIfDue s := rfl

theorem State.endIfDue_clockPart (s : State) (e : Nat × Flow) : (s.endIfDue e).clockPart = s.clockPart := by
  unfold State.endIfDue
  split
  · split
    · exact State.deliverPacket_clockPart ..
    · rfl
  · rfl

theorem State.endIfDue_idle {s : State} {e : Nat × Flow} (h : e.2.sending = none) : s.endIfDue e = s := by
  rw [State.endIfDue, h]

theorem State.deliverDue_clockPart (s : State) : s.deliverDue.clockPart = s.clockPart := by
  rw [State.deliverDue_eq]
  exact foldl_keeps State.clockPart _ State.endIfDue_clockPart _ _

/-- No packet of the Tollgate is under way: none is delivered. -/
theorem State.deliverDue_idle {s : State} (h : ∀ e ∈ s.flows, e.2.sending = none) : s.deliverDue = s := by
  have hfold : ∀ l : Tbl Flow, (∀ e ∈ l, e.2.sending = none) → l.foldl State.endIfDue s = s := by
    intro l
    induction l with
    | nil => intro _; rfl
    | cons e r ih =>
      intro hl
      obtain ⟨he, hr⟩ := List.forall_mem_cons.1 hl
      rw [List.foldl_cons, State.endIfDue_idle he]
      exact ih hr
  exact hfold s.flows h

-- Messages ----------------------------------------------------------------------------------------------------------------------

/-- A message of the vector went out in this tick (R315). -/
def State.msixSent (s : State) (f v : Nat) : Prop := s.ic.sentAt = s.now ∧ (f, v) ∈ s.ic.sent

/-- The state that notes a message of this tick and counts it (R315). -/
def State.msixNoted (s : State) (f v : Nat) : State :=
  ({ s with ic := { s.ic with sentAt := s.now,
                              sent := (if s.ic.sentAt = s.now then s.ic.sent else []) ++ [(f, v)] } }).bump
    (Reg.msgCount (portOf f)) 0 32

/-- The vector or its function is masked. -/
def State.msixMasked (s : State) (f v : Nat) : Prop := (s.fn f).funcMask ∨ v ∉ (s.fn f).unmasked

theorem State.sendMsix_sent {s : State} {f v : Nat} (h : s.msixSent f v) : s.sendMsix f v = s := by
  obtain ⟨h1, h2⟩ := h
  simp [State.sendMsix, h1, h2]

theorem State.msixSent_contains {s : State} {f v : Nat} (h : ¬s.msixSent f v) :
    (if s.ic.sentAt = s.now then s.ic.sent else []).contains (f, v) = false := by
  split
  · rename_i h1
    simpa using fun h2 => h ⟨h1, h2⟩
  · rfl

/-- A message that is the vector's first in its tick is noted; then it is held or goes (R315). -/
theorem State.sendMsix_new {s : State} {f v : Nat} (h : ¬s.msixSent f v) :
    s.sendMsix f v =
      if (s.fn f).funcMask || !(s.fn f).unmasked.contains v then
        (s.msixNoted f v).setFn f
          { s.fn f with pba := if (s.fn f).pba.contains v then (s.fn f).pba else (s.fn f).pba ++ [v] }
      else (s.msixNoted f v).emitMsix f v := by
  unfold State.sendMsix
  dsimp only
  rw [if_neg (by rw [State.msixSent_contains h]; decide)]
  rfl

/-- The state with a masked message in the Pending Bit Array (R315). -/
def State.msixHeld (s : State) (f v : Nat) : State :=
  (s.msixNoted f v).setFn f { s.fn f with pba := if (s.fn f).pba.contains v then (s.fn f).pba else (s.fn f).pba ++ [v] }

theorem State.sendMsix_masked {s : State} {f v : Nat} (h : ¬s.msixSent f v) (hm : s.msixMasked f v) :
    s.sendMsix f v = s.msixHeld f v := by
  rw [State.sendMsix_new h, if_pos (by simpa [State.msixMasked] using hm), State.msixHeld]

theorem State.sendMsix_open {s : State} {f v : Nat} (h : ¬s.msixSent f v) (hm : ¬s.msixMasked f v) :
    s.sendMsix f v = (s.msixNoted f v).emitMsix f v := by
  rw [State.sendMsix_new h, if_neg (by simpa [State.msixMasked] using hm)]

/-- What a message can do: nothing, be held, or go. -/
theorem State.sendMsix_cases (s : State) (f v : Nat) :
    s.sendMsix f v = s ∨ s.sendMsix f v = s.msixHeld f v ∨ s.sendMsix f v = (s.msixNoted f v).emitMsix f v := by
  by_cases h : s.msixSent f v
  · exact .inl (State.sendMsix_sent h)
  by_cases hm : s.msixMasked f v
  · exact .inr (.inl (State.sendMsix_masked h hm))
  · exact .inr (.inr (State.sendMsix_open h hm))

theorem State.msixNoted_clockPart (s : State) (f v : Nat) : (s.msixNoted f v).clockPart = s.clockPart :=
  State.bump_clockPart ..

theorem State.msixNoted_reg_ne (s : State) (f v o : Nat) (h : o ≠ Reg.msgCount (portOf f)) :
    (s.msixNoted f v).reg o = s.reg o := State.setRegF_reg_ne _ _ _ _ _ _ h

theorem State.wakeLink_clockPart (s : State) (n : Nat) : (s.wakeLink n).clockPart = s.clockPart := by
  unfold State.wakeLink; split <;> rfl

theorem State.wakeLink_reg_ne (s : State) (n o : Nat) (h : o ≠ Reg.portStatus n) : (s.wakeLink n).reg o = s.reg o := by
  unfold State.wakeLink
  split
  · exact State.setRegF_reg_ne _ _ _ _ _ _ h
  · rfl

theorem State.wakeLink_out (s : State) (n : Nat) : (s.wakeLink n).out = s.out := by
  unfold State.wakeLink; split <;> rfl

theorem State.wakeLink_flows (s : State) (n : Nat) : (s.wakeLink n).flows = s.flows := by
  unfold State.wakeLink; split <;> rfl

theorem State.emitMsix_clockPart (s : State) (f v : Nat) : (s.emitMsix f v).clockPart = s.clockPart := by
  unfold State.emitMsix
  split
  · rfl
  · exact State.wakeLink_clockPart ..

theorem State.emitMsix_reg_ne (s : State) (f v o : Nat) (h : o ≠ Reg.portStatus (portOf f)) :
    (s.emitMsix f v).reg o = s.reg o := by
  unfold State.emitMsix
  split
  · rfl
  · exact State.wakeLink_reg_ne _ _ _ h

theorem State.emitMsix_flows (s : State) (f v : Nat) : (s.emitMsix f v).flows = s.flows := by
  unfold State.emitMsix
  split
  · rfl
  · exact State.wakeLink_flows ..

theorem State.emitMsix_out {s : State} {f v : Nat} (h : s.ideDrops (portOf f) .device = false) :
    (s.emitMsix f v).out = s.out ++ [.msix f v] := by
  unfold State.emitMsix
  rw [if_neg (by simp [h]), ← State.wakeLink_out s (portOf f)]
  rfl

theorem State.msixHeld_clockPart (s : State) (f v : Nat) : (s.msixHeld f v).clockPart = s.clockPart :=
  State.msixNoted_clockPart s f v

theorem State.msixHeld_pba (s : State) (f v : Nat) : v ∈ ((s.msixHeld f v).fn f).pba := by
  rw [State.msixHeld, State.setFn_fn_same]
  dsimp only
  split
  · rename_i h; simpa using h
  · simp

theorem State.sendMsix_clockPart (s : State) (f v : Nat) : (s.sendMsix f v).clockPart = s.clockPart := by
  rcases s.sendMsix_cases f v with h | h | h <;> rw [h]
  · exact State.msixHeld_clockPart ..
  · rw [State.emitMsix_clockPart, State.msixNoted_clockPart]

theorem State.sendMsix_syncStatus (s : State) (f v : Nat) :
    (s.sendMsix f v).reg Reg.syncStatus = s.reg Reg.syncStatus := by
  have hport : portOf f < 2 := Nat.mod_lt _ (by omega)
  have hcount : Reg.syncStatus ≠ Reg.msgCount (portOf f) := by simp only [Reg.syncStatus, Reg.msgCount]; omega
  have hlink : Reg.syncStatus ≠ Reg.portStatus (portOf f) := by simp only [Reg.syncStatus, Reg.portStatus]; omega
  rcases s.sendMsix_cases f v with h | h | h <;> rw [h]
  · exact State.msixNoted_reg_ne _ _ _ _ hcount
  · rw [State.emitMsix_reg_ne _ _ _ _ hlink, State.msixNoted_reg_ne _ _ _ _ hcount]

theorem State.sendMsix_flows (s : State) (f v : Nat) : (s.sendMsix f v).flows = s.flows := by
  rcases s.sendMsix_cases f v with h | h | h <;> rw [h]
  · rfl
  · rw [State.emitMsix_flows]; rfl

-- The messages of the cycle ----------------------------------------------------------------------------------------------------

/-- The state with no delivery latched. -/
def State.unlatched (s : State) : State := { s with ic := { s.ic with latches := [] } }

/-- The message of a latched delivery leaves. -/
def State.sendLatch (s : State) (l : Latch) : State :=
  match l.msg with
  | some (f, v) => s.sendMsix f v
  | none => s

theorem State.sendLatched_all (s : State) :
    (s.sendLatched fun _ => true) = s.ic.latches.foldl State.sendLatch s.unlatched := by
  have hkeep : (s.ic.latches.filter fun _ => true) = s.ic.latches := List.filter_eq_self.2 fun _ _ => rfl
  have hdrop : (s.ic.latches.filter fun _ => !true) = [] := List.filter_eq_nil_iff.2 fun _ _ => by simp
  unfold State.sendLatched
  rw [hkeep, hdrop]
  rfl

theorem State.sendLatch_clockPart (s : State) (l : Latch) : (s.sendLatch l).clockPart = s.clockPart := by
  unfold State.sendLatch
  split
  · exact State.sendMsix_clockPart ..
  · rfl

theorem State.sendLatch_syncStatus (s : State) (l : Latch) : (s.sendLatch l).reg Reg.syncStatus = s.reg Reg.syncStatus := by
  unfold State.sendLatch
  split
  · exact State.sendMsix_syncStatus ..
  · rfl

theorem State.sendLatched_clockPart (s : State) :
    (s.sendLatched fun _ => true).clockPart = (s.pending, s.time, []) := by
  rw [State.sendLatched_all]
  exact foldl_keeps State.clockPart _ State.sendLatch_clockPart _ _

theorem State.sendLatched_syncStatus (s : State) :
    (s.sendLatched fun _ => true).reg Reg.syncStatus = s.reg Reg.syncStatus := by
  rw [State.sendLatched_all]
  exact foldl_keeps (fun t : State => t.reg Reg.syncStatus) _ State.sendLatch_syncStatus _ _

/-- With nothing latched no message leaves. -/
theorem State.sendLatched_none {s : State} (h : s.ic.latches = []) : (s.sendLatched fun _ => true) = s := by
  rw [State.sendLatched_all, h, List.foldl_nil, State.unlatched, ← h]

theorem State.sendLatched_one {s : State} {l : Latch} {f v : Nat} (h : s.ic.latches = [l]) (hm : l.msg = some (f, v)) :
    (s.sendLatched fun _ => true) = s.unlatched.sendMsix f v := by
  rw [State.sendLatched_all, h, List.foldl_cons, List.foldl_nil, State.sendLatch, hm]

-- Time ---------------------------------------------------------------------------------------------------------------------------

theorem TimeSt.tick_raw (t : TimeSt) (slewing slow : Bool) : (t.tick slewing slow).raw = t.raw + 1 := by
  unfold TimeSt.tick
  repeat' split
  all_goals rfl

theorem TimeSt.le_tick_now (t : TimeSt) (slewing slow : Bool) : t.now ≤ (t.tick slewing slow).now := by
  unfold TimeSt.tick
  repeat' split
  all_goals dsimp only; omega

/-- Neither slewed nor slow, device time counts every tick (R327). -/
theorem TimeSt.tick_plain (t : TimeSt) (h : t.runs) : (t.tick false false).now = t.now + 1 := by
  simp [TimeSt.tick, h]

theorem State.tick_time (s : State) :
    s.tick.time = s.time.tick (s.regB Reg.syncStatus 30) (s.regB Reg.syncStatus 29) := by
  unfold State.tick
  dsimp only
  split <;> rfl

theorem State.tick_frame (s : State) : s.tick = { s with time := s.tick.time, clk := s.tick.clk, regs := s.tick.regs } := by
  unfold State.tick
  dsimp only
  split <;> rfl

/-- The state one cycle later, before deliveries and packets end with it. -/
def State.advance (s : State) : State :=
  if s.time.cycle + 1 ≥ 12 then { s.tick with time := { s.tick.time with cycle := 0 } }
  else { s with time := { s.time with cycle := s.time.cycle + 1 } }

theorem State.cycle_eq (s : State) : s.cycle = (s.sendLatched fun _ => true).advance.settleIc.deliverDue := rfl

theorem State.advance_below {s : State} (h : s.time.cycle < 11) :
    s.advance = { s with time := { s.time with cycle := s.time.cycle + 1 } } := if_neg (by omega)

theorem State.advance_tick {s : State} (h : s.time.cycle ≥ 11) :
    s.advance = { s.tick with time := { s.tick.time with cycle := 0 } } := if_pos (by omega)

theorem State.advance_frame (s : State) :
    s.advance = { s with time := s.advance.time, clk := s.advance.clk, regs := s.advance.regs } := by
  unfold State.advance
  split
  · rw [State.tick_frame]
  · rfl

theorem State.settleIc_frame (s : State) : s.settleIc = { s with ic := { s.ic with ist := s.settleIc.ic.ist } } := rfl

theorem State.settleIc_ist (s : State) (n : Nat) : s.settleIc.ist n = (s.ist n).settle s.cyc :=
  Tbl.get_mapVal _ _ _ _ rfl

theorem IstEntry.settle_due {e : IstEntry} {l c : Nat} (h : e.latched = some l) (hc : l + 4 < c) :
    e.settle c = { e with pend := e.reRaised, reRaised := false, latched := none } := by
  simp [IstEntry.settle, h, hc]

theorem IstEntry.settle_unlatched {e : IstEntry} {c : Nat} (h : e.latched = none) : e.settle c = e := by
  simp [IstEntry.settle, h]

-- The cycle as a whole ----------------------------------------------------------------------------------------------------------

theorem State.cycle_clockPart (s : State) : s.cycle.clockPart = (s.pending, (s.sendLatched fun _ => true).advance.time, []) := by
  have h := s.sendLatched_clockPart
  rw [State.clockPart, Prod.mk.injEq, Prod.mk.injEq] at h
  obtain ⟨hp, -, hl⟩ := h
  rw [State.cycle_eq, State.deliverDue_clockPart, State.settleIc_frame, State.advance_frame, ← hp]
  exact congrArg (fun x => (_, _, x)) hl

theorem State.cycle_pending (s : State) : s.cycle.pending = s.pending := congrArg Prod.fst s.cycle_clockPart

theorem State.cycle_latches (s : State) : s.cycle.ic.latches = [] := congrArg (fun x => x.2.2) s.cycle_clockPart

theorem State.cycle_time (s : State) : s.cycle.time = (s.sendLatched fun _ => true).advance.time :=
  congrArg (fun x => x.2.1) s.cycle_clockPart

theorem State.sendLatched_time (s : State) : (s.sendLatched fun _ => true).time = s.time :=
  congrArg (fun x => x.2.1) s.sendLatched_clockPart

theorem State.cycle_time_below {s : State} (h : s.time.cycle < 11) :
    s.cycle.time = { s.time with cycle := s.time.cycle + 1 } := by
  rw [State.cycle_time, State.advance_below (by rwa [State.sendLatched_time]), State.sendLatched_time]

theorem State.cycle_time_tick {s : State} (h : s.time.cycle ≥ 11) :
    s.cycle.time = { s.time.tick (s.regB Reg.syncStatus 30) (s.regB Reg.syncStatus 29) with cycle := 0 } := by
  rw [State.cycle_time, State.advance_tick (by rwa [State.sendLatched_time])]
  dsimp only
  rw [State.tick_time, State.sendLatched_time, State.regB, State.regB, State.sendLatched_syncStatus]
  rfl

/-- No packet under way: nothing ends with the cycle but deliveries. -/
theorem State.cycle_idleFlows {s : State} (h : ∀ e ∈ (s.sendLatched fun _ => true).flows, e.2.sending = none) :
    s.cycle = (s.sendLatched fun _ => true).advance.settleIc := by
  rw [State.cycle_eq, State.deliverDue_idle]
  rwa [State.settleIc_frame, State.advance_frame]

theorem State.cycle_quiet {s : State} (h : Obligations.quiet s) : s.cycle = s.advance.settleIc := by
  obtain ⟨hl, hf⟩ := h
  have h0 := State.sendLatched_none hl
  rw [State.cycle_idleFlows (by rwa [h0]), h0]

/-- A quiet cycle changes time, delivered sources and, at a tick, what counts ticks. -/
theorem State.cycle_quiet_frame {s : State} (h : Obligations.quiet s) :
    s.cycle = { s with time := s.cycle.time, ic := { s.ic with ist := s.cycle.ic.ist }, clk := s.cycle.clk,
                       regs := s.cycle.regs } := by
  rw [State.cycle_quiet h, State.settleIc_frame, State.advance_frame]

theorem State.cycle_quiet_below {s : State} (h : Obligations.quiet s) (hc : s.time.cycle < 11) :
    s.cycle = { s with time := s.cycle.time, ic := s.cycle.ic } := by
  rw [State.cycle_quiet h, State.settleIc_frame, State.advance_below hc]

theorem State.cycle_quiet_ist {s : State} (h : Obligations.quiet s) (n : Nat) :
    s.cycle.ist n = (s.ist n).settle s.cycle.cyc := by
  rw [State.cycle_quiet h, State.settleIc_ist]
  have hi : s.advance.ist n = s.ist n := by rw [State.advance_frame]; rfl
  rw [hi]
  rfl

/-- The message of the only delivery latched leaves, or is held in the Pending Bit Array (R315). -/
theorem State.cycle_message {s : State} {l : Latch} {f v : Nat} (hl : s.ic.latches = [l]) (hm : l.msg = some (f, v))
    (hf : ∀ e ∈ s.flows, e.2.sending = none) (hn : ¬s.msixSent f v) (hd : s.ideDrops (portOf f) .device = false) :
    (s.msixMasked f v → s.cycle.out = s.out ∧ v ∈ (s.cycle.fn f).pba) ∧
      (¬s.msixMasked f v → s.cycle.out = s.out ++ [.msix f v]) := by
  have hsend := State.sendLatched_one hl hm
  have hflows : ∀ e ∈ (s.sendLatched fun _ => true).flows, e.2.sending = none := by
    rw [hsend, State.sendMsix_flows]; exact hf
  have hout : s.cycle.out = (s.unlatched.sendMsix f v).out := by
    rw [State.cycle_idleFlows hflows, State.settleIc_frame, State.advance_frame, hsend]
  have hfn : s.cycle.fn f = (s.unlatched.sendMsix f v).fn f := by
    rw [State.cycle_idleFlows hflows, State.settleIc_frame, State.advance_frame, hsend]; rfl
  refine ⟨fun hmask => ?_, fun hopen => ?_⟩
  · rw [hout, hfn, State.sendMsix_masked (s := s.unlatched) hn hmask]
    exact ⟨rfl, State.msixHeld_pba ..⟩
  · rw [hout, State.sendMsix_open (s := s.unlatched) hn hopen]
    exact State.emitMsix_out hd

theorem step_empty {s : State} (h : s.pending = []) : step s = .next (s.popped []).cycle := by
  unfold step
  rw [h]

theorem State.popped_empty {s : State} (h : s.pending = []) : s.popped [] = { s with out := [] } := by
  rw [← h]; rfl

/-- Settles O3, from what a cycle leaves of the time and the queue, and from the quiet cycle. -/
theorem idleStepCountsTime : Obligations.IdleStepCountsTime := by
  intro s hp
  let q : State := { s with out := [] }
  refine ⟨q.cycle, ?_, q.cycle_pending.trans hp, q.cycle_latches, fun hc => State.cycle_time_below (s := q) hc,
    fun hc => ?_, fun hc hrun hslew hslow => ?_, fun hq => ?_, fun l f v hl hm hf hn hd => ?_⟩
  · rw [step_empty hp, State.popped_empty hp]
  · have ht := State.cycle_time_tick (s := q) hc
    rw [State.now, State.now, ht]
    exact ⟨rfl, TimeSt.tick_raw .., TimeSt.le_tick_now ..⟩
  · have h30 : s.regB Reg.syncStatus 30 = false := by simpa using hslew
    have h29 : s.regB Reg.syncStatus 29 = false := by simpa using hslow
    rw [State.now, State.now, State.cycle_time_tick (s := q) hc]
    change (s.time.tick (s.regB Reg.syncStatus 30) (s.regB Reg.syncStatus 29)).now = _
    rw [h30, h29]
    exact TimeSt.tick_plain _ hrun
  · have hqq : Obligations.quiet q := hq
    refine ⟨State.cycle_quiet_below hqq, fun n l hl hc => ?_, fun n hn => ?_, State.cycle_quiet_frame hqq⟩
    · rw [State.cycle_quiet_ist hqq]
      exact IstEntry.settle_due hl hc
    · rw [State.cycle_quiet_ist hqq]
      exact IstEntry.settle_unlatched hn
  · have hnew : ¬q.msixSent f v := by
      rintro ⟨h1, h2⟩
      exact hn.elim (fun h => h h1) (fun h => h h2)
    obtain ⟨hmasked, hopen⟩ := State.cycle_message (s := q) hl hm hf hnew hd
    split
    · rename_i h; exact hmasked h
    · rename_i h; exact hopen h

end Sys2Proof.Machine
end

section
/-! SUPPORT. A Vestibule's fault where its frames stand on two gangs (R374, R375; Table 17-3 code 0x0301). A frame that holds its
gang and is not replayed ends at its next pier, unless a replay comes first on that gang. `State.frameFaults` asks for a replay
among all frames of the fault: a span's fault strikes frames of one gang, and a Vestibule's may strike frames of several. -/

namespace Sys2Proof.Machine

/-- The ENC_FRAME of session `i`, handed to the span scheduler. -/
def contextPacket (i : Nat) : Packet :=
  { id := i, q := 0, fid := 0, words := [at_ 16 i ||| 0x20], state := .frame, mark := 0, mute := false }

/-- Its frame, on encode group `i` of gang size 1 and with a context in its Vestibule. -/
def contextFrame (i : Nat) (st : FStage) : Frame :=
  { Frame.ofPacket (contextPacket i) 0 false with stage := st, group := (0, i), vbCtx := true }

/-- An enabled encode session on Vestibule 0 whose home is group `i`. -/
def contextSession (i : Nat) (prot : Bool) : Session :=
  { Session.reset with en := true, claimed := true, cfg := [at_ 30 (b2n prot) ||| at_ 28 1], home := some (0, i), vb := some 0 }

/-- Vestibule 0 conditions two frames. That of the PROTECTED session 1 waits for its replay on group 1, whose span tests in
place; that of session 2 holds group 2, whose span serves. -/
def twoGangs : State :=
  { State.reset with
    sess := [(1, contextSession 1 true), (2, contextSession 2 false)],
    qs := { State.reset.qs with packets := [contextPacket 1, contextPacket 2], nextId := 3 },
    span := { State.reset.span with
      mapEnc := [(1, 1), (2, 2)],
      testing := [{ kind := .enc, phys := 1, inPlace := some 1, spare := false, seq := 1 }],
      groups := [1, 2].map fun i => (groupKey .enc 0 i, { Group.reset with holder := some (4096 * i) }),
      frames := [contextFrame 1 .replayWait, contextFrame 2 .granted],
      gatedVb := [] } }

/-- The state is one of the invariant that every step keeps. -/
theorem twoGangs_inv : Inv twoGangs :=
  ⟨State.reset_mem_wf, by decide, by decide, by decide, fun _ _ _ h => nomatch h⟩

/-- The check failure of Vestibule 0 is a contained fault without a twin. -/
theorem twoGangs_contained :
    twoGangs.inGf = false ∧ twoGangs.classOf (Report.of 0x0300 0x0301) = 1 ∧ twoGangs.twin (Report.of 0x0300 0x0301) = none ∧
      (twoGangs.span.frames.map (·.id)).Nodup := by decide

/-- The frame that waits for a replay is the PROTECTED session's. -/
theorem twoGangs_replays :
    ∀ f ∈ (twoGangs.vbFrames 0).filter Frame.vbCtx, f.awaitsReplay = true → twoGangs.replays f false = true := by decide

/-- The fault ends session 2's frame in an empty crossing, where R374 lets it run to its next pier. -/
theorem twoGangs_crosses : ((twoGangs.vbFault 0 none).st.session 2).crossings = (twoGangs.session 2).crossings + 1 := by
  decide +kernel

/-- A Vestibule's check failure outside Ground Floor mode is a fault of that Vestibule (R372). -/
theorem exec_vestibuleCheckFailed {n : Fin 4} {s : State} (h : s.inGf = false) :
    exec (.vestibuleCheckFailed n) s = .next (s.vbFault n.val none).st := by
  change execVestibuleCheckFailed n s = _
  rw [execVestibuleCheckFailed, h]
  rfl

/-- Refutes O56, in its clause on a Vestibule's fault: where every frame of the Vestibule that waits for a replay is replayed, no
session is to change. In `twoGangs` the granted frame of session 2 crosses in the step of the fault all the same, because the
frame of session 1 is replayed, though on another gang. -/
theorem not_spanFaults : ¬ Obligations.SpanFaults := by
  rintro ⟨-, -, -, -, vestibules, -⟩
  obtain ⟨hgf, hclass, htwin, hnodup⟩ := twoGangs_contained
  obtain ⟨-, -, contained⟩ := vestibules 0 twoGangs
  obtain ⟨t, ht, -, unmoved⟩ := contained hgf hclass htwin hnodup
  obtain ⟨-, -, hsess, -⟩ := unmoved twoGangs_replays
  obtain rfl : (twoGangs.vbFault 0 none).st = t := by
    injection (exec_vestibuleCheckFailed hgf).symm.trans ht
  have hsame : (twoGangs.vbFault 0 none).st.session 2 = twoGangs.session 2 := congrArg (·.get 2 Session.reset) hsess
  have hcross := twoGangs_crosses
  rw [hsame] at hcross
  omega

end Sys2Proof.Machine
end

section
/-! SUPPORT. The replacement of a member of a stripe group (R263, R276; Table 12-8) where MEMBER_OUT names no member. SG_STATUS
holds the pseudo-channel of member `m` in bits [5m + 4 : 5m] and MEMBER_OUT in bits [28:26]. Members are 0 to 4, so the five fields
end below MEMBER_OUT; the field of a member 5 would lie over it. -/

namespace Sys2Proof.Machine

/-- Group 0 FROZEN with MEMBER_OUT 5, to which Table 12-8 gives no meaning (0 to 4 are members, 7 is none); stack 0 has its two spares. -/
def fifthOut : State := (State.reset.setRegF (Reg.sgStatus 0) 29 3 1).setRegF (Reg.sgStatus 0) 26 3 5

/-- The invariant that every step keeps says nothing of MEMBER_OUT. -/
theorem fifthOut_inv : Inv fifthOut :=
  ⟨State.reset_mem_wf, by decide, by decide, by decide, fun _ _ _ h => nomatch h⟩

theorem fifthOut_frozen : fifthOut.sgState 0 = 1 ∧ fifthOut.memberOut 0 = 5 ∧ fifthOut.sparesOf (stackOf 0) = 2 := by decide

/-- Of a FROZEN group, a diagnosis that finds a member fault replaces the member (R276). -/
theorem exec_diagnosisEnd_memberFault {g : Fin 24} {s : State} (h : s.sgState g.val = 1) :
    exec (.diagnosisEnd g .memberFault) s =
      .next ((s.diagOutcome g.val 4).replaceMember g.val (s.mc.freezeAt.get g.val 0)) := by
  change execDiagnosisEnd g .memberFault s = _
  simp only [execDiagnosisEnd, h, ne_eq, not_true_eq_false, if_false]

/-- The number of the first spare, 30, goes into bits [29:25], and MEMBER_OUT reads 7. -/
theorem fifthOut_replaced : ((fifthOut.diagOutcome 0 4).replaceMember 0 0).memberOut 0 = 7 := by decide

/-- Refutes O32, in its clause on a row or member fault, which asks that the replacement keep MEMBER_OUT for every FROZEN group, with
no bound on its value: in `fifthOut` the spare's number overwrites it, 5 becoming 7. The clause beside it, on the
spare, does ask for a member below 5, and every freeze of the model names one. -/
theorem not_groupStates : ¬ Obligations.GroupStates := by
  intro h
  obtain ⟨hfrozen, hout, -⟩ := fifthOut_frozen
  obtain ⟨-, diagnosed, -⟩ := h 0 fifthOut
  obtain ⟨-, fault⟩ := diagnosed hfrozen
  obtain ⟨t, ht, hkept, -⟩ := fault .memberFault (.inr rfl)
  obtain rfl : (fifthOut.diagOutcome 0 4).replaceMember 0 0 = t := by
    injection (exec_diagnosisEnd_memberFault (g := 0) hfrozen).symm.trans ht
  have hseven : 7 = 5 := fifthOut_replaced.symm.trans (hkept.trans hout)
  omega

end Sys2Proof.Machine
end
